-- ==== Sys2Proof/Word.lean ====
section
/-! DEFINITION. The byte of the terminal port and of the cellar link, and the index types of the station. -/

namespace Sys2Proof

/-- A byte of the SPI port or of the cellar link. -/
abbrev Byte := BitVec 8

/-- A faucet line L0 to L7 (00_scope.md, Conventions). -/
abbrev LineNo := Fin 8

/-- A source S0 to S15 (00_scope.md, Conventions). -/
abbrev SourceNo := Fin 16

end Sys2Proof
end

