-- ==== Sys2Proof/Syntax.lean ====
section
/-! DEFINITION. The commands and events of the NX408: one constructor of `Instr` for each row of
spec/opcode_table.json, with the operands the row's rule gives it. -/

namespace Sys2Proof

/-- A portion key of the tower (R4). -/
inductive Key where
  | a
  | b
deriving DecidableEq, Repr

/-- A cleaning input pin that a condition flag follows (R158). -/
inductive CondPin where
  | chem
  | clear
  | ext
deriving DecidableEq, Repr

/-- The clean state that a station announces (R108, R173), in the order of R196. -/
inductive CleanState where
  | none
  | claiming
  | active
deriving DecidableEq, Repr

/-- The station state that a STATUS frame announces (R108), in the order of R196. -/
inductive Announced where
  | stopped
  | running
deriving DecidableEq, Repr

/-- One entry of a STATUS frame (R96, R123): the fields of the entry on the link, the flags
character held as its empty flag alone. -/
structure LinkEntry where
  source : Byte
  gen : Byte
  empty : Bool
  full : BitVec 32
  cum : BitVec 32
deriving DecidableEq, Repr

/-- The payload of a STATUS frame (R108). The entry count is the length of the entry list. -/
structure StatusBody where
  running : Announced
  demand : Byte
  clean : CleanState
  age : Byte
  entries : List LinkEntry
deriving DecidableEq, Repr

/-- The payload of a CHANGE frame (R109). -/
structure ChangeBody where
  source : Byte
  gen : Byte
  full : BitVec 32
deriving DecidableEq, Repr

/-- What a frame carries, by its kind (R102). -/
inductive FrameBody where
  | status (b : StatusBody)
  | change (b : ChangeBody)
deriving DecidableEq, Repr

/-- A frame of the cellar link: the sender's station number and the payload (R102). -/
structure LinkFrame where
  station : Byte
  body : FrameBody
deriving DecidableEq, Repr

/-- The checks of the receive assembly, in the order of the table of R105. -/
inductive RxCheck where
  | character
  | delimiter
  | gap
  | kind
  | station
  | length
  | crc
  | content
deriving DecidableEq, Repr

/-- The commands and events of the block: one constructor for each row of spec/opcode_table.json.
Terminal commands carry the payload fields of R195 as bytes; tower events carry their line. -/
inductive Instr where
  /-- CONFIGURE (R192): the configuration image as sent, of any length. -/
  | configure (image : List Byte)
  /-- START (R191). -/
  | start
  /-- STOP (R191). -/
  | stop
  /-- RESET (R193). -/
  | reset
  /-- READ-STATUS (R194). -/
  | readStatus
  /-- READ-LINE (R30). -/
  | readLine (line : Byte)
  /-- READ-SOURCE (R97). -/
  | readSource (source : Byte)
  /-- READ-PEER (R132). -/
  | readPeer (station : Byte)
  /-- READ-LINK (R120). -/
  | readLink
  /-- READ-ATTENTION (R190). -/
  | readAttention
  /-- TAKE-RECORD (R77). -/
  | takeRecord
  /-- ORDER (R54). -/
  | order (line : Byte) (tag volume : BitVec 16)
  /-- CANCEL (R56). -/
  | cancel (line : Byte) (tag : BitVec 16)
  /-- POUR-STOP (R28). -/
  | pourStop (line : Byte)
  /-- UNLOCK (R26). -/
  | unlock (line : Byte)
  /-- CALIBRATE (R47): the measured volume Va in 0.1 mL. -/
  | calibrate (line : Byte) (va : BitVec 32)
  /-- SOURCE-CHANGE (R89): the full volume in 0.1 mL. -/
  | sourceChange (source : Byte) (full : BitVec 32)
  /-- CLEAN-START (R175): the entry and the line set, bit n for line Ln. -/
  | cleanStart (entry lines : Byte)
  /-- CLEAN-ABORT (R185). -/
  | cleanAbort
  /-- CLEAR-MUTE (R119). -/
  | clearMute
  /-- A command period that R189 does not execute. -/
  | commandNotExecuted
  /-- A read period (R188) in which `bytes` bytes are clocked. -/
  | readPeriod (bytes : Nat)
  /-- The response is prepared and RDY rises (R188). -/
  | responseReady
  /-- 100 ms after RDY rose on the RESET response (R193). -/
  | resetResponseTimeout
  /-- RSTN is driven low (R193). -/
  | rstnAssert
  /-- RSTN is released (R193). -/
  | rstnRelease
  /-- RDY rises after a reset (R193). -/
  | portReadyAfterReset
  /-- Debounced closing of HDLn (R5). -/
  | handlePress (line : LineNo)
  /-- Debounced opening of HDLn (R5). -/
  | handleRelease (line : LineNo)
  /-- Debounced closing of KAn or KBn (R5). -/
  | keyPress (line : LineNo) (key : Key)
  /-- Expiry of a parked key entry (R12). -/
  | keyEntryExpiry (line : LineNo)
  /-- End of the 2 s refuse flash (R6). -/
  | refuseFlashEnd (line : LineNo)
  /-- End of the 60 ms full drive of a valve (R7). -/
  | valveHoldDrive (line : LineNo)
  /-- A pulse taken on MTRn (R32). -/
  | meterPulse (line : LineNo)
  /-- Expiry of the no-flow timer (R18). -/
  | noFlowExpiry (line : LineNo)
  /-- Expiry of the pour timer (R18). -/
  | pourTimerExpiry (line : LineNo)
  /-- Expiry of the after-run timer (R22). -/
  | pourCompletion (line : LineNo)
  /-- The end of a second of station seconds (R65). -/
  | stationSecondsTick
  /-- Arrival of a frame that passes every check (R107). -/
  | validFrameArrival (frame : LinkFrame)
  /-- A frame fails a check of R105 and is discarded. -/
  | frameDiscarded (check : RxCheck)
  /-- The idle time of the pair passes 22 bit-times (R104). -/
  | idleGapExpiry
  /-- Expiry of the announcement timer (R111). -/
  | announcementTimerExpiry
  /-- The idle wait of the current frame runs out (R113). -/
  | accessWaitExpiry
  /-- A collision on the character being sent (R114). -/
  | collision
  /-- The low CRC character is read back without collision (R117). -/
  | transmitSuccess
  /-- A peer record reaches 3000 ms (R127). -/
  | peerExpiry (station : Byte)
  /-- A sample of TSNS with its 12-bit code (R135). -/
  | sensorSample (code : BitVec 12)
  /-- Start of a glycol frame (R145). -/
  | glycolFrameStart
  /-- End of the on-time of a glycol frame (R145). -/
  | glycolOnTimeEnd
  /-- A debounced new level on CHEM, CLEAR or EXT (R158). -/
  | conditionPinChange (pin : CondPin) (level : Bool)
  /-- The flow timer reaches 1000 ms (R159). -/
  | flowTimeout
  /-- The step clock reaches the dwell (R164). -/
  | dwellExpiry
  /-- The step clock reaches the limit (R166). -/
  | limitExpiry
  /-- The run clock reaches RunLimit (R170). -/
  | runLimitExpiry
  /-- A character start on the pair (R101). -/
  | characterStart
  /-- A character taken with its value and its error indication (R101, R104). -/
  | characterTaken (value : Byte) (err : Bool)
  /-- A phase of a lamp pattern runs out (R6). -/
  | lampBlinkPhase (line : LineNo)
deriving DecidableEq, Repr

end Sys2Proof
end

