-- ==== Sys2Proof/WellFormed.lean ====
section
/-! DEFINITION. Which operands a command or event of the block can have. A command whose operand
the terminal may send at all is well formed, whatever the station answers to it. -/

namespace Sys2Proof

/-- A station number on the cellar link is 1 to 32 (R102, R105). -/
def stationInRange (n : Byte) : Bool := 1 ≤ n.toNat && n.toNat ≤ 32

/-- A payload of the link fits the frame: at most eight entries in a STATUS (R106). -/
def FrameBody.wf : FrameBody → Bool
  | .status b => b.entries.length ≤ 8
  | .change _ => true

/-- A frame that can pass the checks of R105 and R106. -/
def LinkFrame.wf (f : LinkFrame) : Bool := stationInRange f.station && f.body.wf

/-- The operands that the rules allow: a CONFIGURE payload fits its 16-bit length (R189), a read
period has clocked its first byte (R188), a frame that arrives is valid (R105), a peer record is
keyed by a station number (R122). -/
def Instr.wf : Instr → Bool
  | .configure image => image.length < 65536
  | .readPeriod n => 1 ≤ n
  | .validFrameArrival f => f.wf
  | .peerExpiry n => stationInRange n
  | _ => true

end Sys2Proof
end

