-- ==== Sys2Proof/Decode.lean ====
section
/-! DEFINITION. From bits to commands: the words of the opcode table (it gives none), and the select
periods of the terminal port (R188, R189, R195) with their encoder. -/

namespace Sys2Proof

/-- The command that a word of the opcode table spells. No row of spec/opcode_table.json gives any
bits, so no word spells a command. -/
def decodeTableWord (_nbits _w : Nat) : Option Instr := none

/-- Two bytes, high byte first (R195). -/
def be16 (hi lo : Byte) : BitVec 16 := hi ++ lo

/-- Four bytes, high byte first (R195). -/
def be32 (b3 b2 b1 b0 : Byte) : BitVec 32 := b3 ++ b2 ++ b1 ++ b0

/-- A 16-bit field as its two bytes, high byte first (R195). -/
def bytes16 (w : BitVec 16) : List Byte := [w.extractLsb' 8 8, w.extractLsb' 0 8]

/-- A 32-bit field as its four bytes, high byte first (R195). -/
def bytes32 (w : BitVec 32) : List Byte :=
  [w.extractLsb' 24 8, w.extractLsb' 16 8, w.extractLsb' 8 8, w.extractLsb' 0 8]

/-- The command codes and payloads of R195. A code that is not listed, and a payload of another
length, give a command that is not executed (R189); CONFIGURE takes every length (R192). -/
def decodeCommand (code : Nat) (payload : List Byte) : Instr :=
  match code, payload with
  | 0x10, image => .configure image
  | 0x11, [] => .start
  | 0x12, [] => .stop
  | 0x13, [] => .reset
  | 0x20, [] => .readStatus
  | 0x21, [line] => .readLine line
  | 0x22, [source] => .readSource source
  | 0x23, [station] => .readPeer station
  | 0x24, [] => .readLink
  | 0x25, [] => .readAttention
  | 0x30, [] => .takeRecord
  | 0x40, [line, t1, t0, v1, v0] => .order line (be16 t1 t0) (be16 v1 v0)
  | 0x41, [line, t1, t0] => .cancel line (be16 t1 t0)
  | 0x42, [line] => .pourStop line
  | 0x43, [line] => .unlock line
  | 0x44, [line, v3, v2, v1, v0] => .calibrate line (be32 v3 v2 v1 v0)
  | 0x50, [source, f3, f2, f1, f0] => .sourceChange source (be32 f3 f2 f1 f0)
  | 0x60, [entry, lines] => .cleanStart entry lines
  | 0x61, [] => .cleanAbort
  | 0x70, [] => .clearMute
  | _, _ => .commandNotExecuted

/-- A command period judged at its end (R189), RDY apart: fewer than 3 bytes, or fewer than 3 plus
the payload length, are not executed; bytes beyond are ignored. -/
def decodePeriod : List Byte → Instr
  | code :: l1 :: l0 :: rest =>
    let n := (be16 l1 l0).toNat
    if rest.length < n then .commandNotExecuted else decodeCommand code.toNat (rest.take n)
  | _ => .commandNotExecuted

/-- A select period by the bytes clocked in (R188): nothing without a full byte, a read period when
the first byte is 00h, a command period otherwise. -/
def decodeSelect : List Byte → Option Instr
  | [] => none
  | first :: rest =>
    if first = 0 then some (.readPeriod (rest.length + 1)) else some (decodePeriod (first :: rest))

/-- The bits of a byte on the terminal port, most significant bit first (R188). -/
def portBits (b : Byte) : List Bool := (List.range 8).map b.getMsbD

/-- The full bytes of the bits clocked in, most significant bit first (R188). -/
def portBytes : List Bool → List Byte
  | b7 :: b6 :: b5 :: b4 :: b3 :: b2 :: b1 :: b0 :: rest =>
    BitVec.ofBoolListBE [b7, b6, b5, b4, b3, b2, b1, b0] :: portBytes rest
  | _ => []

/-- A select period by the bits clocked in at the rising edges of SCK (R188). -/
def decodeSelectBits (bits : List Bool) : Option Instr := decodeSelect (portBytes bits)

/-- The code and the payload of a terminal command (R195); none for what the terminal does not send
as a command. -/
def encodeCommand : Instr → Option (Byte × List Byte)
  | .configure image => some (0x10, image)
  | .start => some (0x11, [])
  | .stop => some (0x12, [])
  | .reset => some (0x13, [])
  | .readStatus => some (0x20, [])
  | .readLine line => some (0x21, [line])
  | .readSource source => some (0x22, [source])
  | .readPeer station => some (0x23, [station])
  | .readLink => some (0x24, [])
  | .readAttention => some (0x25, [])
  | .takeRecord => some (0x30, [])
  | .order line tag volume => some (0x40, line :: (bytes16 tag ++ bytes16 volume))
  | .cancel line tag => some (0x41, line :: bytes16 tag)
  | .pourStop line => some (0x42, [line])
  | .unlock line => some (0x43, [line])
  | .calibrate line va => some (0x44, line :: bytes32 va)
  | .sourceChange source full => some (0x50, source :: bytes32 full)
  | .cleanStart entry lines => some (0x60, [entry, lines])
  | .cleanAbort => some (0x61, [])
  | .clearMute => some (0x70, [])
  | _ => none

/-- The bytes of the select period that sends a command: the code, the 16-bit payload length and the
payload (R189), or the zero bytes of a read period (R188). -/
def encodeSelect (i : Instr) : Option (List Byte) :=
  match i with
  | .readPeriod n => some (List.replicate n 0)
  | i => (encodeCommand i).map fun c =>
      c.1 :: (bytes16 (BitVec.ofNat 16 c.2.length) ++ c.2)

end Sys2Proof
end

