-- ==== Sys2Proof/Config.lean ====
section
/-! DEFINITION. What the spec leaves to the part's surroundings and does not give: free values, the levels
that the world puts on the input pins at each moment of the block's clock (log 4, 35). Nothing constrains
them; only the block's own clock reads them. -/

namespace Sys2Proof

/-- FREE VALUE (log 4): the 12-bit code that the analog input TSNS presents at a moment. A commanded
SENSOR_SAMPLE carries its code. -/
opaque Config.tsnsCode : Nat → BitVec 12

/-- FREE VALUE (log 35): HDLn is closed at a moment (R4). -/
opaque Config.handleClosed : LineNo → Nat → Bool

/-- FREE VALUE (log 35): KAn or KBn is closed at a moment (R4). -/
opaque Config.keyClosed : LineNo → Key → Nat → Bool

/-- FREE VALUE (log 35): MTRn is high at a moment (R31). -/
opaque Config.meterHigh : LineNo → Nat → Bool

/-- FREE VALUE (log 35): CHEM, CLEAR or EXT is high at a moment (R158). -/
opaque Config.condHigh : CondPin → Nat → Bool

/-- FREE VALUE (log 35): the level that other stations drive on LKA and LKB at a moment, true for mark;
none while no other station drives (R100). -/
opaque Config.pairDriven : Nat → Option Bool

/-- FREE VALUE (log 35): the level of the pair at a moment when own station and another drive opposite
levels, which R114 calls not defined. -/
opaque Config.pairContended : Nat → Bool

end Sys2Proof
end

