-- ==== Sys2Proof/Machine/State.lean ====
section
/-! DEFINITION. The state of the NX408, block by block, as plain data, and its value after reset.
Times are moments of `State.now`, in units of 2 µs (log 1); a stopped timer is `none`. -/

namespace Sys2Proof.Machine

/-- The machine never stops with a fault: the spec names none (INVENTORY, Faults). -/
inductive Fault where
deriving DecidableEq, Repr

/-- Why a command has no meaning. -/
inductive Refusal where
  /-- Raised by exec for a row that the model does not reach. Safe. No row is left so. -/
  | notModelled (mnemonic : String)
deriving DecidableEq, Repr

/-- The station states (R191), in the order of its table. -/
inductive StationState where
  | unconfigured
  | stopped
  | running
deriving DecidableEq, Repr

/-- The eight line states (R1), in the order of its table. -/
inductive LineState where
  | off
  | ready
  | waiting
  | pouring
  | afterRun
  | reserved
  | cleaning
  | locked
deriving DecidableEq, Repr

/-- The lock reasons (R2). -/
inductive LockReason where
  | clear
  | foamOut
  | leak
  | cleanIncomplete
deriving DecidableEq, Repr

/-- The kinds of a start request (R8). -/
inductive StartKind where
  | handle
  | keyA
  | keyB
deriving DecidableEq, Repr

/-- The pour modes (R16, R197). -/
inductive PourMode where
  | free
  | presetA
  | presetB
  | order
deriving DecidableEq, Repr

/-- The end reasons of a pour (R19, R197). -/
inductive EndReason where
  | target
  | release
  | foamOut
  | noFlow
  | timeLimit
  | overrange
  | cancelled
  | stopped
deriving DecidableEq, Repr

/-- The line modes (R51). -/
inductive LineMode where
  | free
  | ordered
deriving DecidableEq, Repr

/-- How a step judges its masked flags (R154). -/
inductive TestKind where
  | allSet
  | allClear
  | pattern
deriving DecidableEq, Repr

/-- Where a step leads: a step index, or END (as next) and FAIL (as fault next) (R154). -/
inductive StepTarget where
  | step (index : Nat)
  | leave
deriving DecidableEq, Repr

/-- The condition flags (R157), also a set of them (R154). -/
structure CondFlags where
  flow : Bool
  volume : Bool
  chem : Bool
  clear : Bool
  ext : Bool
deriving DecidableEq, Repr

/-- A set of step outputs (R154). -/
structure Outputs where
  water : Bool
  chem : Bool
  air : Bool
  pump : Bool
  faucets : Bool
  coolOff : Bool
  beerOut : Bool
deriving DecidableEq, Repr

/-- A step record of the recipe table (R154): times in s. -/
structure StepRec where
  outputs : Outputs
  dwell : Nat
  limit : Nat
  kind : TestKind
  mask : CondFlags
  pattern : CondFlags
  pulses : Nat
  next : StepTarget
  faultNext : StepTarget
deriving DecidableEq, Repr

/-- The per-line part of the configuration (R39, R51, R198): NoFlow in 0.1 s; `g` is the working
gain (R49). -/
structure LineCfg where
  source : SourceNo
  mode : LineMode
  k : Nat
  g : Int
  oq : Int
  fint : Nat
  foamRun : Nat
  noFlow : Nat
  leakLimit : Nat
  presetA : Nat
  presetB : Nat
deriving DecidableEq, Repr

/-- The configuration as CONFIGURE loads it (R198). Lines at or above the line count hold blank
items, which nothing uses (R192). -/
structure Cfg where
  station : Nat
  lineCount : Nat
  announcePeriod : Nat
  cap : Nat
  tset : Int
  twarm : Int
  hyst : Int
  dgain : Nat
  dpour : Nat
  dfault : Nat
  ms : Nat
  os : Int
  pace : Nat
  maxPour : Nat
  holdWait : Nat
  cleanSlots : Nat
  runLimit : Nat
  threshold : Nat
  entry1 : Nat
  entry2 : Nat
  lines : Vector LineCfg 8
  lowThreshold : Vector Nat 16
  steps : List StepRec
deriving DecidableEq, Repr

/-- The statuses of a response (R195). -/
inductive Status where
  | ok
  | badState
  | badArg
  | badConfig
  | queueFull
  | duplicate
  | notFound
  | empty
  | range
  | journalFull
  | muted
deriving DecidableEq, Repr

/-- A response of the terminal port (R188, R195): the status, its OVERRUN marker and the data. -/
structure Response where
  status : Status
  overrun : Bool
  data : List Byte
deriving DecidableEq, Repr

/-- A RESET accepted and not yet acted on (R193). -/
inductive ResetArm where
  | idle
  | preparing
  | armed (since : Nat)
deriving DecidableEq, Repr

/-- The terminal port (R188, R189, R193). -/
structure Port where
  rdy : Bool
  held : Option Response
  preparing : Option Response
  overrunNext : Bool
  resetArm : ResetArm
  since : Nat
  sdo : List Byte
deriving DecidableEq, Repr

/-- The attention set (R190). -/
structure Attention where
  journalLevel : Bool
  sourceLow : Bool
  sourceEmpty : Bool
  lineLocked : Bool
  cleanEnd : Bool
  mute : Bool
  linkDrop : Bool
  sensorFault : Bool
deriving DecidableEq, Repr

/-- An order of an order queue (R53). -/
structure Order where
  tag : BitVec 16
  volume : Nat
deriving DecidableEq, Repr

/-- The pour context (R16), with its no-flow timer and the moment the valve opened, from which the
pour timer runs (R18). -/
structure PourCtx where
  mode : PourMode
  tag : Option (BitVec 16)
  target : Option Nat
  pulseTarget : Option Nat
  k : Nat
  g : Int
  oq : Int
  start : BitVec 32
  openedAt : Nat
  duration : Option Nat
  noFlowFrom : Nat
  total : Nat
  foam : Nat
  creep : Nat
  endReason : Option EndReason
  foamWithdrawn : Bool
deriving DecidableEq, Repr

/-- The last-pour record (R46). -/
structure LastPour where
  endReason : EndReason
  total : Nat
  foam : Nat
  beer : Nat
  k : Nat
  g : Int
  oq : Int
  v : Nat
  vr : Nat
deriving DecidableEq, Repr

/-- The drive of a faucet valve (R7). -/
inductive Valve where
  | closed
  | full (since : Nat)
  | hold
deriving DecidableEq, Repr

/-- The lamp patterns (R6). -/
inductive LampPattern where
  | off
  | steady
  | slow
  | fast
  | alternating
deriving DecidableEq, Repr

/-- A debounced input (R4, R158): the level taken, and the moment since which the pin has held the other
level; none while it shows the level taken. -/
structure Debounce where
  level : Bool
  changed : Option Nat
deriving DecidableEq, Repr

/-- The input MTRn (R31): the level taken, and how many successive samples have shown the other level. -/
structure MeterInput where
  high : Bool
  seen : Nat
deriving DecidableEq, Repr

/-- One Line Unit with its Order Queue (R1, R53) and its inputs (R4, R31). -/
structure Line where
  state : LineState
  lock : LockReason
  creep : Nat
  pour : Option PourCtx
  lastPour : Option LastPour
  remembered : Option Key
  cleanMark : Bool
  flashFrom : Option Nat
  consecFoam : Nat
  intervalFrom : Option Nat
  afterRunFrom : Option Nat
  valve : Valve
  lamp : LampPattern
  lampOn : Bool
  lampFrom : Nat
  handle : Debounce
  keyA : Debounce
  keyB : Debounce
  meter : MeterInput
  orders : List Order
deriving DecidableEq, Repr

/-- An entry of the pending start list (R11); the expiry is absent for HANDLE. -/
structure StartEntry where
  line : LineNo
  kind : StartKind
  expiry : Option Nat
deriving DecidableEq, Repr

/-- A POUR record (R71). -/
structure PourRecord where
  seq : BitVec 16
  start : BitVec 32
  duration : Nat
  line : LineNo
  source : SourceNo
  gen : BitVec 8
  mode : PourMode
  tag : Option (BitVec 16)
  target : Option Nat
  total : Nat
  foam : Nat
  volume : Nat
  endReason : EndReason
  creep : Option (Nat × Nat)
deriving DecidableEq, Repr

/-- A WASTE record (R73). -/
structure WasteRecord where
  seq : BitVec 16
  start : BitVec 32
  line : LineNo
  source : SourceNo
  gen : BitVec 8
  pulses : Nat
  volume : Nat
  run : BitVec 16
deriving DecidableEq, Repr

/-- The result of a cleaning run (R74, R197). -/
inductive RunResult where
  | completed
  | failed
  | aborted
deriving DecidableEq, Repr

/-- A CLEAN record (R74). -/
structure CleanRecord where
  seq : BitVec 16
  start : BitVec 32
  duration : Nat
  run : BitVec 16
  entry : Nat
  lines : Byte
  result : RunResult
  lastStep : Option Nat
deriving DecidableEq, Repr

/-- A journal record (R64). -/
inductive Record where
  | pour (r : PourRecord)
  | waste (r : WasteRecord)
  | clean (r : CleanRecord)
deriving DecidableEq, Repr

/-- The Pour Journal (R64, R70). -/
structure Journal where
  records : List Record
  reserved : Nat
  seq : BitVec 16
deriving DecidableEq, Repr

/-- A source record of the Source View (R81). -/
structure SourceRec where
  gen : BitVec 8
  full : Nat
  own : Nat
  carry : Nat
  empty : Bool
  low : Bool
deriving DecidableEq, Repr

/-- The receive assembly (R104); in ASSEMBLY with the characters taken after the delimiter. -/
inductive RxState where
  | off
  | discard
  | hunt
  | assembly (chars : List Byte)
  | readback
deriving DecidableEq, Repr

/-- The current frame of the transmit queue (R110). -/
inductive CurrentKind where
  | status
  | change
deriving DecidableEq, Repr

/-- The current frame with its collision count k (R110). -/
structure Current where
  kind : CurrentKind
  k : Nat
deriving DecidableEq, Repr

/-- A frame being sent: its characters, how many of them have been read back (R114), and the moment its
first character began. -/
structure TxFrame where
  chars : List Byte
  sent : Nat
  began : Nat
deriving DecidableEq, Repr

/-- What the driver puts on the pair (R100): characters back to back from a moment, until the end of the
stop bit at which it is disabled. -/
structure Drive where
  chars : List Byte
  began : Nat
  ends : Nat
deriving DecidableEq, Repr

/-- The receiver at the level of bits (R101): waiting for the mark level, ready for a falling edge, or in
a character that began at a moment, with the bits sampled, true for mark. -/
inductive Receiver where
  | wait
  | mark
  | busy (since : Nat) (bits : List Bool)
deriving DecidableEq, Repr

/-- The Link Controller (chapter 6). An attempt goes on while `tx` is present; `drive` is what the driver
puts on the pair. -/
structure Link where
  rx : RxState
  idleFrom : Option Nat
  statusReq : Bool
  changes : List ChangeBody
  current : Option Current
  tx : Option TxFrame
  drive : Option Drive
  recv : Receiver
  announceFrom : Option Nat
  charErr : Nat
  formatErr : Nat
  crcErr : Nat
  collisions : Nat
  drops : Nat
  mute : Bool
deriving DecidableEq, Repr

/-- A peer record (R123); the station number is its place in the table, and time since last STATUS
is counted from `lastAt`. -/
structure PeerRec where
  fresh : Bool
  lastAt : Nat
  body : StatusBody
deriving DecidableEq, Repr

/-- The Cooling Controller (R134). -/
structure Cooling where
  lastCode : BitVec 12
  temp : Option Int
  fault : Bool
  faultSamples : Nat
  demand : Nat
  grant : Nat
  latched : Nat
  frameFrom : Option Nat
  sampleFrom : Option Nat
  starved : Bool
  warmHold : Bool
  coolOff : Bool
  gly : Bool
  freshDemand : Nat
deriving DecidableEq, Repr

/-- The run states (R173), in the order of its table. -/
inductive RunState where
  | idle
  | preparing
  | claiming
  | running
deriving DecidableEq, Repr

/-- What CLEAN-START gives a run (R173). -/
structure Job where
  entry : Nat
  lines : Byte
  start : BitVec 32
deriving DecidableEq, Repr

/-- The phase of a step (R157). -/
inductive Phase where
  | dwell
  | testing
deriving DecidableEq, Repr

/-- The progress of a run in RUNNING (R157). -/
structure Progress where
  step : Nat
  phase : Phase
  stepFrom : Nat
  runFrom : Nat
deriving DecidableEq, Repr

/-- Since when CHEM, CLEAR and EXT have held a level other than the one taken (R158). -/
structure PinHolds where
  chem : Option Nat
  clear : Option Nat
  ext : Option Nat
deriving DecidableEq, Repr

/-- The Cleaning Sequencer (R157, R173). The levels taken on CHEM, CLEAR and EXT are the flags of those
names (R158). -/
structure Cleaning where
  runState : RunState
  runNumber : BitVec 16
  job : Option Job
  slots : Nat
  age : Nat
  ahead : Nat
  progress : Option Progress
  stepCounts : Vector Nat 8
  beerOut : Vector Nat 8
  flowFrom : Option Nat
  flags : CondFlags
  holds : PinHolds
  out : Outputs
deriving DecidableEq, Repr

/-- The whole machine. -/
structure State where
  now : Nat
  rstnLow : Bool
  station : StationState
  config : Option Cfg
  port : Port
  attn : Attention
  seconds : BitVec 32
  secondFrom : Option Nat
  lines : Vector Line 8
  starts : List StartEntry
  pours : Nat
  journal : Journal
  sources : Vector SourceRec 16
  link : Link
  peers : Vector (Option PeerRec) 32
  cool : Cooling
  clean : Cleaning
  pending : List Instr
deriving DecidableEq, Repr

/-- No condition flag. -/
def CondFlags.none : CondFlags := ⟨false, false, false, false, false⟩

/-- No output in force. -/
def Outputs.none : Outputs := ⟨false, false, false, false, false, false, false⟩

/-- The empty attention set (R190). -/
def Attention.none : Attention := ⟨false, false, false, false, false, false, false, false⟩

/-- The terminal port after reset (R193); `since`, `sdo` and the markers are named in log 31. -/
def Port.reset : Port :=
  { rdy := false, held := none, preparing := none, overrunNext := false, resetArm := .idle,
    since := 0, sdo := [] }

/-- An input whose level is taken, with the pin showing it: at reset open or low (R4, R158). -/
def Debounce.taken (level : Bool) : Debounce := { level, changed := none }

/-- The input MTRn with a level taken and no sample of the other level: at reset low (R31). -/
def MeterInput.taken (high : Bool) : MeterInput := { high, seen := 0 }

/-- No pin holds a level other than the one taken (R158). -/
def PinHolds.none : PinHolds := { chem := Option.none, clear := Option.none, ext := Option.none }

/-- A Line Unit after reset (R1, R4, R31, R53). -/
def Line.reset : Line :=
  { state := .off, lock := .clear, creep := 0, pour := none, lastPour := none, remembered := none,
    cleanMark := false, flashFrom := none, consecFoam := 0, intervalFrom := none,
    afterRunFrom := none, valve := .closed, lamp := .off, lampOn := false, lampFrom := 0,
    handle := .taken false, keyA := .taken false, keyB := .taken false, meter := .taken false,
    orders := [] }

/-- A source record after reset (R81). -/
def SourceRec.reset : SourceRec :=
  { gen := 0, full := 0, own := 0, carry := 0, empty := false, low := false }

/-- The Link Controller after reset (R121). -/
def Link.reset : Link :=
  { rx := .off, idleFrom := none, statusReq := false, changes := [], current := none, tx := none,
    drive := none, recv := .wait, announceFrom := none, charErr := 0, formatErr := 0, crcErr := 0,
    collisions := 0, drops := 0, mute := false }

/-- The Cooling Controller after reset (R134). -/
def Cooling.reset : Cooling :=
  { lastCode := 0, temp := none, fault := false, faultSamples := 0, demand := 0, grant := 0,
    latched := 0, frameFrom := none, sampleFrom := none, starved := false, warmHold := false,
    coolOff := false, gly := false, freshDemand := 0 }

/-- The Cleaning Sequencer after reset (R157, R158, R173). -/
def Cleaning.reset : Cleaning :=
  { runState := .idle, runNumber := 0, job := none, slots := 0, age := 0, ahead := 0,
    progress := none, stepCounts := Vector.replicate 8 0, beerOut := Vector.replicate 8 0,
    flowFrom := none, flags := .none, holds := .none, out := .none }

/-- The machine right after reset (R193, and the reset rules R1, R80, R99, R121, R133, R152, R186 of
the blocks); values that the spec does not state are named in log 31. -/
def State.reset : State :=
  { now := 0, rstnLow := false, station := .unconfigured, config := none, port := .reset,
    attn := .none, seconds := 0, secondFrom := none, lines := Vector.replicate 8 .reset,
    starts := [], pours := 0, journal := { records := [], reserved := 0, seq := 0 },
    sources := Vector.replicate 16 .reset, link := .reset, peers := Vector.replicate 32 none,
    cool := .reset, clean := .reset, pending := [] }

end Sys2Proof.Machine
end

