-- ==== Sys2Proof/Machine/Clock.lean ====
section
/-! DEFINITION. The block's clock: the unit of `State.now`, the spec's durations in that unit, and the
readings of the timers (log 1, 10). -/

namespace Sys2Proof.Machine

/-- One bit-time of the cellar link, 8 µs (R100), in units of 2 µs. -/
def bitTime : Nat := 4

/-- One tick of the meter input, 50 µs (R31), in units of 2 µs. -/
def meterTick : Nat := 25

/-- One millisecond in units of 2 µs. -/
def msec : Nat := 500

/-- One second in units of 2 µs. -/
def sec : Nat := 500000

/-- The after-run window, 400 ms (R19). -/
def afterRunTime : Nat := 400 * msec

/-- The refuse flash, 2 s (R6). -/
def flashTime : Nat := 2 * sec

/-- The full drive of a valve, 60 ms (R7). -/
def fullDriveTime : Nat := 60 * msec

/-- The longest time from the end of a command period, or from a reset, to the rise of RDY: 2 ms
(R188, R193). -/
def readyTime : Nat := 2 * msec

/-- The time a RESET response waits to be read, 100 ms (R193). -/
def resetWaitTime : Nat := 100 * msec

/-- The sample period of TSNS, 250 ms (R135). -/
def sampleTime : Nat := 250 * msec

/-- The glycol frame, 2560 ms (R145). -/
def glycolTime : Nat := 2560 * msec

/-- The silence after which a peer record goes STALE, 3000 ms (R127). -/
def staleTime : Nat := 3000 * msec

/-- The flow timer's end, 1000 ms (R159). -/
def flowTime : Nat := 1000 * msec

/-- The half period of a blinking lamp pattern (R6); a steady or dark lamp has none. -/
def blinkTime : LampPattern → Option Nat
  | .off => none
  | .steady => none
  | .slow => some (500 * msec)
  | .fast => some (125 * msec)
  | .alternating => some (1000 * msec)

/-- Whole units of `unit` from `since` to `now`. -/
def elapsed (now since unit : Nat) : Nat := (now - since) / unit

/-- The reading of a counter that saturates at `max` (00_scope.md, Conventions). -/
def sat (max n : Nat) : Nat := min n max

/-- The largest value of an 8-bit, 16-bit and 32-bit saturating counter. -/
def max8 : Nat := 255
def max16 : Nat := 65535
def max32 : Nat := 4294967295

/-- The next value of a saturating counter. -/
def satInc (max n : Nat) : Nat := if n < max then n + 1 else n

/-- The pulse interval timer read at a moment: 50 µs ticks, saturating at 65535 (R34). -/
def intervalTicks (now since : Nat) : Nat := sat max16 (elapsed now since meterTick)

/-- A duration in units of 10 ms, saturating at 65535 (R16, R30); rounded down (log 10). -/
def tenMs (now since : Nat) : Nat := sat max16 (elapsed now since (10 * msec))

/-- The idle time of the pair in bit-times (R101); 0 while a character is on the pair. -/
def idleBits (now idleFrom : Nat) : Nat := elapsed now idleFrom bitTime

/-- Time since last STATUS in ms, saturating at 65535 (R123, R127). -/
def sinceStatus (now lastAt : Nat) : Nat := sat max16 (elapsed now lastAt msec)

end Sys2Proof.Machine
end

