-- ==== Sys2Proof/Machine/Meter.lean ====
section
/-! DEFINITION. The Meter Arithmetic Unit (chapter 2): volume from pulses, pulse target from a portion
volume, and the new gain of a calibration. -/

namespace Sys2Proof.Machine

/-- The gain factor 65536 + G (R40 stage 2), as a natural number. -/
def gainFactor (g : Int) : Nat := (65536 + g).toNat

/-- Stage 1 of R40: quarter pulses Q = 4 × B + Oq, a negative Q taken as 0. -/
def quarterPulses (beer : Nat) (oq : Int) : Nat := (4 * (beer : Int) + oq).toNat

/-- Stages 1 to 3 of R40: the volume V in µL, rounded half up. Without beer pulses V is 0, as R41 says,
whatever Oq: the model's choice where stage 1 of R40 alone would give Q = Oq (DESIGN CHOICE, log 36). -/
def volumeMicro (k : Nat) (g oq : Int) (beer : Nat) : Nat :=
  if beer = 0 then 0 else (quarterPulses beer oq * gainFactor g * k + 131072) / 262144

/-- Stage 4 of R40: a volume in µL as units of 0.1 mL, rounded half up. -/
def volumeUnits (v : Nat) : Nat := (v + 50) / 100

/-- The reported volume Vr of R40 in units of 0.1 mL. -/
def pourVolume (k : Nat) (g oq : Int) (beer : Nat) : Nat := volumeUnits (volumeMicro k g oq beer)

/-- Division rounded toward plus infinity (00_scope.md, Conventions). -/
def ceilDiv (a b : Nat) : Nat := (a + b - 1) / b

/-- Stage 1 of R44: the least quarter pulses whose volume is at least the target. -/
def targetQuarters (k : Nat) (g : Int) (pt : Nat) : Nat :=
  ceilDiv (pt * 100 * 262144) (k * gainFactor g)

/-- `clamp a..b` of the Conventions. -/
def clampInt (lo hi x : Int) : Int := if x < lo then lo else if hi < x then hi else x

/-- Stage 2 of R44: the pulse target T, clamped to 1..65535. -/
def pulseTarget (k : Nat) (g oq : Int) (pt : Nat) : Nat :=
  (clampInt 1 65535 (((targetQuarters k g pt : Int) - oq + 3) / 4)).toNat

/-- The new gain of R48 from the last-pour record's V and G used, and the measured volume Va. -/
def newGain (v : Nat) (g : Int) (va : Nat) : Int :=
  let n := gainFactor g * va * 100
  (((2 * n + v) / (2 * v) : Nat) : Int) - 65536

/-- The tower temperature of a good code (R136): floor((c × Ms + 512) ÷ 1024) + Os, clamped. -/
def towerTemp (c ms : Nat) (os : Int) : Int :=
  clampInt (-400) 800 ((((c * ms + 512) / 1024 : Nat) : Int) + os)

/-- The demand of R140 from the error e, the gain, and the pours in progress. -/
def demandOf (e : Int) (dgain npour dpour : Nat) : Nat :=
  (clampInt 0 255 (Int.fdiv (e * dgain) 16 + (npour * dpour : Nat))).toNat

/-- The grant of R142 from the demand d and the sum S. -/
def grantOf (d sum cap : Nat) : Nat := if sum ≤ cap then d else d * cap / sum

end Sys2Proof.Machine
end

