-- ==== Sys2Proof/Machine/Flags.lean ====
section
/-! DEFINITION. Flag computations: the attention set (R190), the condition flags and the advance test
(R157 to R161), as bits and as sets. -/

namespace Sys2Proof.Machine

/-- The attention set as its byte, JOURNAL-LEVEL in bit 0 to SENSOR-FAULT in bit 7 (R195). -/
def Attention.byte (a : Attention) : Byte :=
  BitVec.ofBoolListLE [a.journalLevel, a.sourceLow, a.sourceEmpty, a.lineLocked, a.cleanEnd,
    a.mute, a.linkDrop, a.sensorFault]

/-- ATN is high while the set holds a flag (R190). -/
def Attention.any (a : Attention) : Bool :=
  a.journalLevel || a.sourceLow || a.sourceEmpty || a.lineLocked || a.cleanEnd || a.mute ||
    a.linkDrop || a.sensorFault

/-- The condition flags as a byte, FLOW in bit 0 to EXT in bit 4 (R195, R198). -/
def CondFlags.byte (f : CondFlags) : Byte :=
  BitVec.ofBoolListLE [f.flow, f.volume, f.chem, f.clear, f.ext, false, false, false]

/-- A set of condition flags from its byte (R198). -/
def CondFlags.ofByte (b : Byte) : CondFlags :=
  { flow := b.getLsbD 0, volume := b.getLsbD 1, chem := b.getLsbD 2, clear := b.getLsbD 3,
    ext := b.getLsbD 4 }

/-- A set of step outputs from its byte (R198). -/
def Outputs.ofByte (b : Byte) : Outputs :=
  { water := b.getLsbD 0, chem := b.getLsbD 1, air := b.getLsbD 2, pump := b.getLsbD 3,
    faucets := b.getLsbD 4, coolOff := b.getLsbD 5, beerOut := b.getLsbD 6 }

/-- One flag judged by the test kind (R161). -/
def flagPasses (kind : TestKind) (mask pattern flag : Bool) : Bool :=
  !mask || match kind with
    | .allSet => flag
    | .allClear => !flag
    | .pattern => flag == pattern

/-- The advance test of a step on the condition flags (R161); an empty mask is true. -/
def advanceTest (st : StepRec) (f : CondFlags) : Bool :=
  flagPasses st.kind st.mask.flow st.pattern.flow f.flow &&
  flagPasses st.kind st.mask.volume st.pattern.volume f.volume &&
  flagPasses st.kind st.mask.chem st.pattern.chem f.chem &&
  flagPasses st.kind st.mask.clear st.pattern.clear f.clear &&
  flagPasses st.kind st.mask.ext st.pattern.ext f.ext

/-- The flag that a pin's taken level sets (R158). -/
def CondFlags.setPin (f : CondFlags) (pin : CondPin) (level : Bool) : CondFlags :=
  match pin with
  | .chem => { f with chem := level }
  | .clear => { f with clear := level }
  | .ext => { f with ext := level }

/-- The flag that follows a pin (R158). -/
def CondFlags.pin (f : CondFlags) : CondPin → Bool
  | .chem => f.chem
  | .clear => f.clear
  | .ext => f.ext

/-- How a received generation g stands to the view's generation v (R88). -/
inductive GenOrder where
  | equal
  | newer
  | older
deriving DecidableEq, Repr

/-- The comparison of R88 by modulo-256 distance. -/
def genOrder (g v : BitVec 8) : GenOrder :=
  let d := (g - v).toNat
  if d = 0 then .equal else if d ≤ 127 then .newer else .older

end Sys2Proof.Machine
end

