-- ==== Sys2Proof/Machine/Ops.lean ====
section
/-! DEFINITION. The shared operations over the state: access to lines, sources and configuration, the
attention set, lamps and valves, the pending start list, the journal, the transmit queue and reset. -/

namespace Sys2Proof.Machine

/-- The eight lines in ascending order. -/
def allLines : List LineNo := [0, 1, 2, 3, 4, 5, 6, 7]

/-- The sixteen sources in ascending order. -/
def allSources : List SourceNo := [0, 1, 2, 3, 4, 5, 6, 7, 8, 9, 10, 11, 12, 13, 14, 15]

/-- The lines of a set held as a byte, bit n for line Ln (R195). -/
def linesOf (set : Byte) : List LineNo := allLines.filter fun i => set.getLsbD i.val

/-- The items of a line that no configuration gives (log 17). -/
def LineCfg.blank : LineCfg :=
  { source := 0, mode := .free, k := 0, g := 0, oq := 0, fint := 0, foamRun := 0, noFlow := 0,
    leakLimit := 0, presetA := 0, presetB := 0 }

/-- What stands for the configuration while none is loaded: no line is configured (log 17). -/
def Cfg.blank : Cfg :=
  { station := 0, lineCount := 0, announcePeriod := 0, cap := 0, tset := 0, twarm := 0, hyst := 0,
    dgain := 0, dpour := 0, dfault := 0, ms := 0, os := 0, pace := 0, maxPour := 0, holdWait := 0,
    cleanSlots := 0, runLimit := 0, threshold := 0, entry1 := 0, entry2 := 0,
    lines := Vector.replicate 8 .blank, lowThreshold := Vector.replicate 16 0, steps := [] }

/-- The configuration in force. -/
def State.cfg (s : State) : Cfg := s.config.getD .blank

/-- The Line Unit of a line. -/
def State.line (s : State) (i : LineNo) : Line := s.lines[i]

/-- Replace the Line Unit of a line. -/
def State.setLine (s : State) (i : LineNo) (l : Line) : State :=
  { s with lines := s.lines.set i l }

/-- The configuration of a line. -/
def State.lineCfg (s : State) (i : LineNo) : LineCfg := s.cfg.lines[i]

/-- A line is configured when its number is below the line count (R1). -/
def State.configured (s : State) (i : LineNo) : Bool := i.val < s.cfg.lineCount

/-- The record of a source in the Source View (R81). -/
def State.source (s : State) (x : SourceNo) : SourceRec := s.sources[x]

/-- Replace the record of a source. -/
def State.setSource (s : State) (x : SourceNo) (r : SourceRec) : State :=
  { s with sources := s.sources.set x r }

/-- The configured lines that draw on a source (R97). -/
def State.linesOn (s : State) (x : SourceNo) : List LineNo :=
  allLines.filter fun i => s.configured i && (s.lineCfg i).source == x

/-- The source of a line stands EMPTY in the Source View (R8). -/
def State.sourceEmpty (s : State) (i : LineNo) : Bool := (s.source (s.lineCfg i).source).empty

/-- The free space of the journal (R64). -/
def State.freeSpace (s : State) : Nat := 64 - (s.journal.records.length + s.journal.reserved)

/-- Apply an operation to each line of a list, in order. -/
def overLines (f : LineNo → State → State) (is : List LineNo) (s : State) : State :=
  is.foldl (fun s i => f i s) s

/-- The attention flags (R190), in the order of its table. -/
inductive AttnFlag where
  | journalLevel
  | sourceLow
  | sourceEmpty
  | lineLocked
  | cleanEnd
  | mute
  | linkDrop
  | sensorFault
deriving DecidableEq, Repr

/-- Set one attention flag (R190). -/
def Attention.set (a : Attention) : AttnFlag → Attention
  | .journalLevel => { a with journalLevel := true }
  | .sourceLow => { a with sourceLow := true }
  | .sourceEmpty => { a with sourceEmpty := true }
  | .lineLocked => { a with lineLocked := true }
  | .cleanEnd => { a with cleanEnd := true }
  | .mute => { a with mute := true }
  | .linkDrop => { a with linkDrop := true }
  | .sensorFault => { a with sensorFault := true }

/-- Set a flag of the attention set (R190). -/
def raise (f : AttnFlag) (s : State) : State := { s with attn := s.attn.set f }

/-- The pattern that the state of a line asks of its lamp (R6). -/
def lampPattern (s : State) (i : LineNo) : LampPattern :=
  let l := s.line i
  if !s.configured i then .off
  else if l.flashFrom.isSome then .fast
  else match l.state with
    | .off => .off
    | .ready => if s.sourceEmpty i || s.cool.warmHold then .slow else .steady
    | .waiting => .slow
    | .pouring => .steady
    | .afterRun => .steady
    | .reserved => .alternating
    | .cleaning => .alternating
    | .locked => .fast

/-- A lamp asked for a pattern: a new pattern begins with its on phase, the same pattern runs on
(R6). -/
def Line.lit (l : Line) (p : LampPattern) (now : Nat) : Line :=
  if l.lamp = p then l else { l with lamp := p, lampOn := p != .off, lampFrom := now }

/-- The lamp follows the line (R6). -/
def relamp (i : LineNo) (s : State) : State :=
  s.setLine i ((s.line i).lit (lampPattern s i) s.now)

/-- Move a line to a state; its lamp follows. -/
def setState (i : LineNo) (st : LineState) (s : State) : State :=
  relamp i (s.setLine i { s.line i with state := st })

/-- The refuse flash of a refusal (R6): it starts, or its 2 s restart. -/
def refuseFlash (i : LineNo) (s : State) : State :=
  relamp i (s.setLine i { s.line i with flashFrom := some s.now })

/-- A line takes a lock reason, which sets LINE-LOCKED (R2). -/
def setLock (i : LineNo) (r : LockReason) (s : State) : State :=
  raise .lineLocked (s.setLine i { s.line i with lock := r })

/-- A line gives up its lock reason: a LOCKED line goes to READY, any other stays (R2). -/
def clearLock (i : LineNo) (s : State) : State :=
  let l := s.line i
  relamp i (s.setLine i
    { l with lock := .clear, state := if l.state = .locked then .ready else l.state })

/-- A valve opens at full drive; an open valve stays as it is (R7, R163). -/
def Valve.opened (v : Valve) (now : Nat) : Valve :=
  match v with
  | .closed => .full now
  | .full t => .full t
  | .hold => .hold

/-- Set the valve drive of a line. -/
def setValve (i : LineNo) (v : Valve) (s : State) : State :=
  s.setLine i { s.line i with valve := v }

/-- The entry of a line leaves the pending start list; those behind keep their order (R11). -/
def removeStart (i : LineNo) (s : State) : State :=
  { s with starts := s.starts.filter fun e => e.line != i }

/-- An entry leaves the pending start list with refusal, and its line takes a state (R12). -/
def refuseEntry (i : LineNo) (st : LineState) (s : State) : State :=
  let s := removeStart i s
  relamp i (s.setLine i { s.line i with state := st, flashFrom := some s.now })

/-- With no current frame, the oldest CHANGE, or else a requested STATUS, becomes current (R110). -/
def Link.chooseFrame (k : Link) : Link :=
  match k.current with
  | some _ => k
  | none =>
    if !k.changes.isEmpty then { k with current := some ⟨.change, 0⟩ }
    else if k.statusReq then { k with current := some ⟨.status, 0⟩ }
    else k

/-- The next frame is chosen at once (R110). -/
def selectFrame (s : State) : State := { s with link := s.link.chooseFrame }

/-- A request for a STATUS, periodic or early (R111); the queue is closed in MUTE (R118) and while
UNCONFIGURED (R121). -/
def requestStatus (s : State) : State :=
  if s.link.mute || s.station == .unconfigured then s
  else selectFrame { s with link := { s.link with statusReq := true } }

/-- A record is written (R69, R70, R76): it takes the sequence number, joins the tail, spends a
reserved slot, and the fill test is made. -/
def writeRecord (mk : BitVec 16 → Record) (s : State) : State :=
  let j := s.journal
  let s' := { s with journal :=
    { records := j.records ++ [mk j.seq], reserved := j.reserved - 1, seq := j.seq + 1 } }
  if j.records.length + 1 = s.cfg.threshold then raise .journalLevel s' else s'

/-- Every block takes its reset state (R193); the model's own clock and queue go on (log 21). -/
def resetAct (s : State) : State :=
  { State.reset with
    now := s.now, pending := s.pending, port := { Port.reset with since := s.now } }

/-- An event that is taken only while RSTN is released: while it is held low the block does nothing
(R193, log 7). -/
def powered (s : State) (f : State → State) : State := if s.rstnLow then s else f s

end Sys2Proof.Machine
end

