-- ==== Sys2Proof/Machine/Arbiter.lean ====
section
/-! DEFINITION. The Start Arbiter (chapter 1.3): refusal, parking, admission and the service walk. -/

namespace Sys2Proof.Machine

/-- The line is ORDERED (R51). -/
def State.ordered (s : State) (i : LineNo) : Bool := (s.lineCfg i).mode == .ordered

/-- The tests of R8 that concern the entry's own line (R14): its source EMPTY, or for an ORDERED line
an empty order queue. -/
def unstartable (s : State) (i : LineNo) : Bool :=
  s.sourceEmpty i || (s.ordered i && (s.line i).orders.isEmpty)

/-- A line state in which a request is refused at once (R8). -/
def LineState.barred : LineState → Bool
  | .locked => true
  | .reserved => true
  | .cleaning => true
  | _ => false

/-- A request is refused at once (R8). -/
def refusedAtOnce (s : State) (i : LineNo) : Bool :=
  s.station != .running || (s.line i).state.barred || unstartable s i

/-- The pace is exceeded (R9): starved, and the pours in progress number at least the pace limit. -/
def paceExceeded (s : State) : Bool := s.cool.starved && s.cfg.pace ≤ s.pours

/-- A station hold other than the list (R9, R14): warm hold, journal or pace. -/
def stationHold (s : State) : Bool := s.cool.warmHold || s.freeSpace == 0 || paceExceeded s

/-- The pour mode of an admission (R10, table). -/
def pourMode (m : LineMode) (kind : StartKind) : PourMode :=
  match m, kind with
  | .ordered, _ => .order
  | .free, .handle => .free
  | .free, .keyA => .presetA
  | .free, .keyB => .presetB

/-- The target volume of an admission (R10, table). -/
def pourTarget (c : LineCfg) (l : Line) (mode : PourMode) : Option Nat :=
  match mode with
  | .free => none
  | .presetA => some c.presetA
  | .presetB => some c.presetB
  | .order => l.orders.head?.map Order.volume

/-- The pour context that an admission creates (R10, R16). -/
def newPour (s : State) (i : LineNo) (kind : StartKind) : PourCtx :=
  let c := s.lineCfg i
  let l := s.line i
  let mode := pourMode c.mode kind
  let target := pourTarget c l mode
  { mode, target, tag := if mode = .order then l.orders.head?.map Order.tag else none,
    pulseTarget := target.map (pulseTarget c.k c.g c.oq), k := c.k, g := c.g, oq := c.oq,
    start := s.seconds, openedAt := s.now, duration := none, noFlowFrom := s.now, total := 0,
    foam := 0, creep := l.creep, endReason := none, foamWithdrawn := false }

/-- A pour is admitted on a line (R10): the journal slot is reserved first, the head order leaves the
queue of an ORDERED line, the creep count moves into the context, the valve opens. -/
def beginPour (i : LineNo) (kind : StartKind) (s : State) : State :=
  let l := s.line i
  let s1 := { s with
    journal := { s.journal with reserved := s.journal.reserved + 1 }, pours := s.pours + 1 }
  relamp i (s1.setLine i
    { l with
      state := .pouring, pour := some (newPour s i kind), creep := 0, consecFoam := 0,
      intervalFrom := some s.now, valve := .full s.now,
      orders := if s.ordered i then l.orders.tail else l.orders })

/-- A request joins the tail of the pending start list and its line waits (R9, R11). -/
def park (i : LineNo) (kind : StartKind) (expiry : Option Nat) (s : State) : State :=
  setState i .waiting { s with starts := s.starts ++ [⟨i, kind, expiry⟩] }

/-- A request that a hold parks (R9): a HANDLE always parks, a key parks with an expiry when HoldWait
is not 0 and is refused otherwise. -/
def parkOrRefuse (i : LineNo) (kind : StartKind) (s : State) : State :=
  match kind with
  | .handle => park i kind none s
  | _ =>
    if s.cfg.holdWait = 0 then refuseFlash i s
    else park i kind (some (s.now + s.cfg.holdWait * sec)) s

/-- A start request is judged (R8, R9, R10). -/
def request (i : LineNo) (kind : StartKind) (s : State) : State :=
  if refusedAtOnce s i then refuseFlash i s
  else if stationHold s || !s.starts.isEmpty then parkOrRefuse i kind s
  else beginPour i kind s

/-- The service walk over the entries, oldest first (R14). -/
def serveList : List StartEntry → State → State
  | [], s => s
  | e :: rest, s =>
    if unstartable s e.line then serveList rest (refuseEntry e.line .ready s)
    else if stationHold s then s
    else serveList rest (beginPour e.line e.kind (removeStart e.line s))

/-- The arbiter serves the pending start list (R13). -/
def serve (s : State) : State := serveList s.starts s

end Sys2Proof.Machine
end

