-- ==== Sys2Proof/Machine/Sources.lean ====
section
/-! DEFINITION. The Source View (chapter 5): drawn and remaining, the low test, EMPTY, generations,
the carry, and the processing of a peer's entries. -/

namespace Sys2Proof.Machine

/-- The peer records in ascending station number (R122). -/
def State.peerList (s : State) : List PeerRec := s.peers.toList.filterMap id

/-- The first entry for a source in an entry list (R83, R94). -/
def firstEntry (es : List LinkEntry) (x : SourceNo) : Option LinkEntry :=
  es.find? fun e => e.source.toNat == x.val

/-- The cumulative that a peer record adds to the peer draw of a source (R83). -/
def countedDraw (gen : BitVec 8) (x : SourceNo) (p : PeerRec) : Option Nat :=
  match firstEntry p.body.entries x with
  | some e => if e.gen = gen then some e.cum.toNat else none
  | none => none

/-- The peer draw of a source, over FRESH and STALE records (R83). -/
def State.peerDraw (s : State) (x : SourceNo) : Nat :=
  (s.peerList.filterMap (countedDraw (s.source x).gen x)).sum

/-- The number of peer records counted in the peer draw (R97). -/
def State.countedPeers (s : State) (x : SourceNo) : Nat :=
  (s.peerList.filterMap (countedDraw (s.source x).gen x)).length

/-- Drawn: own cumulative, carry and peer draw, without loss (R83). -/
def State.drawn (s : State) (x : SourceNo) : Nat :=
  (s.source x).own + (s.source x).carry + s.peerDraw x

/-- Remaining, defined while the full volume is known (R84). -/
def State.remaining (s : State) (x : SourceNo) : Option Nat :=
  if (s.source x).full = 0 then none else some ((s.source x).full - s.drawn x)

/-- The low test (R84). -/
def lowTest (x : SourceNo) (s : State) : State :=
  let r := s.source x
  match s.remaining x with
  | some rem =>
    if rem ≤ s.cfg.lowThreshold[x] && !r.low then raise .sourceLow (s.setSource x { r with low := true })
    else s
  | none => s

/-- Own cumulative grows by a written record's volume (R82), and the low test follows (R84). -/
def addOwn (x : SourceNo) (volume : Nat) (s : State) : State :=
  let r := s.source x
  lowTest x (s.setSource x { r with own := sat max32 (r.own + volume) })

/-- The lamps of a source's lines follow its EMPTY status (R6, R86). -/
def relampSource (x : SourceNo) (s : State) : State := overLines relamp (s.linesOn x) s

/-- The entries of the pending start list whose line draws on a source are removed with refusal, and
their lines go to READY (R12, R86). -/
def refuseSource (x : SourceNo) (s : State) : State :=
  overLines (fun i => refuseEntry i .ready)
    ((s.starts.map StartEntry.line).filter fun i => (s.lineCfg i).source == x) s

/-- The effects of setting EMPTY (R86). -/
def emptyEffects (x : SourceNo) (s : State) : State :=
  relampSource x (refuseSource x (requestStatus (raise .sourceEmpty s)))

/-- EMPTY is set when it is clear, with the effects of R86; otherwise nothing changes (R85, R94). -/
def setEmpty (x : SourceNo) (s : State) : State :=
  let r := s.source x
  if r.empty then s else emptyEffects x (s.setSource x { r with empty := true })

/-- What a new generation of its source does to one line (R25). -/
def liftFoam (i : LineNo) (s : State) : State :=
  let l := s.line i
  let s1 := if l.lock = .foamOut then clearLock i s else s
  match l.state, l.pour with
  | .afterRun, some p =>
    if p.endReason = some .foamOut then
      s1.setLine i { s1.line i with pour := some { p with foamWithdrawn := true } }
    else s1
  | _, _ => s1

/-- The source takes a new generation (R89, R90): its figures restart, the foam locks of its lines are
lifted, the lamps follow and the low test is made. -/
def newGeneration (x : SourceNo) (gen : BitVec 8) (full : Nat) (empty : Bool) (s : State) : State :=
  let s1 := s.setSource x { gen, full, own := 0, carry := 0, empty, low := false }
  lowTest x (relampSource x (overLines liftFoam (s1.linesOn x) s1))

/-- Adoption of a newer generation (R90). An empty flag that is set has the effects of R86. -/
def adopt (x : SourceNo) (gen : BitVec 8) (full : Nat) (empty : Bool) (s : State) : State :=
  let s1 := newGeneration x gen full empty s
  if empty then emptyEffects x s1 else s1

/-- A CHANGE frame of a peer (R91). -/
def takeChange (b : ChangeBody) (s : State) : State :=
  if h : b.source.toNat < 16 then
    let x : SourceNo := ⟨b.source.toNat, h⟩
    match genOrder b.gen (s.source x).gen with
    | .newer => adopt x b.gen b.full.toNat false s
    | .equal => lowTest x (s.setSource x { s.source x with full := b.full.toNat })
    | .older => s
  else s

/-- The stored cumulative that the carry rule adds to carry (R93), for a stored entry of the view's
generation. -/
def carried (view : BitVec 8) (stored : LinkEntry) (new : Option LinkEntry) : Nat :=
  match new with
  | none => stored.cum.toNat
  | some e =>
    match genOrder e.gen view with
    | .older => stored.cum.toNat
    | .equal => if e.cum.toNat < stored.cum.toNat then stored.cum.toNat else 0
    | .newer => 0

/-- Step 2 of R92: the carry rule for the stored entry of a source. -/
def carryStep (x : SourceNo) (stored new : Option LinkEntry) (s : State) : State :=
  let r := s.source x
  match stored with
  | some e =>
    if e.gen = r.gen then s.setSource x { r with carry := sat max32 (r.carry + carried r.gen e new) }
    else s
  | none => s

/-- Step 3 of R92: a new entry of the view's generation (R94). -/
def equalStep (x : SourceNo) (new : Option LinkEntry) (s : State) : State :=
  let r := s.source x
  match new with
  | some e =>
    if e.gen = r.gen then
      let s1 := if r.full = 0 then s.setSource x { r with full := e.full.toNat } else s
      if e.empty then setEmpty x s1 else s1
    else s
  | none => s

/-- Steps 1 to 3 of R92 for one source. -/
def processSource (stored new : List LinkEntry) (x : SourceNo) (s : State) : State :=
  let o := firstEntry stored x
  let n := firstEntry new x
  match n with
  | some e =>
    if genOrder e.gen (s.source x).gen = .newer then adopt x e.gen e.full.toNat e.empty s
    else equalStep x n (carryStep x o n s)
  | none => carryStep x o n s

/-- The sources that appear in either entry list (R92). -/
def namedSources (stored new : List LinkEntry) : List SourceNo :=
  allSources.filter fun x => (firstEntry stored x).isSome || (firstEntry new x).isSome

/-- Steps 1 to 3 of R92 for every source that appears in either list. -/
def processEntries (stored new : List LinkEntry) (s : State) : State :=
  (namedSources stored new).foldl (fun s x => processSource stored new x s) s

/-- Step 4 of R92: the low test of every source that appears in either list. -/
def lowTests (stored new : List LinkEntry) (s : State) : State :=
  (namedSources stored new).foldl (fun s x => lowTest x s) s

/-- The station's own entries (R96): one for each distinct source of its configured lines, ascending. -/
def ownEntries (s : State) : List LinkEntry :=
  (allSources.filter fun x => !(s.linesOn x).isEmpty).map fun x =>
    let r := s.source x
    { source := BitVec.ofNat 8 x.val, gen := r.gen, empty := r.empty,
      full := BitVec.ofNat 32 r.full, cum := BitVec.ofNat 32 r.own }

end Sys2Proof.Machine
end

