-- ==== Sys2Proof/Machine/Cooling.lean ====
section
/-! DEFINITION. The Cooling Controller (chapter 8): the sample, the grant and the starved flag, the
glycol frames, and cool-off. Meanings of SENSOR_SAMPLE, GLYCOL_FRAME_START, GLYCOL_ON_TIME_END. -/

namespace Sys2Proof.Machine

/-- The sum of the demand of every FRESH peer record (R142). -/
def freshPeerDemand (s : State) : Nat :=
  ((s.peerList.filter PeerRec.fresh).map fun p => p.body.demand.toNat).sum

/-- The grant and the starved flag are computed from the demand held (R142, R144). -/
def regrant (s : State) : State :=
  let fresh := freshPeerDemand s
  let g := grantOf s.cool.demand (s.cool.demand + fresh) s.cfg.cap
  { s with cool := { s.cool with grant := g, starved := g < s.cool.demand, freshDemand := fresh } }

/-- A code that the sensor input gives for a sound sensor (R137). -/
def goodCode (c : BitVec 12) : Bool := 15 < c.toNat && c.toNat < 4080

/-- Steps 1 to 3 of a sample (R135 to R139): the last code, the temperature and the sensor fault. -/
def takeCode (c : BitVec 12) (s : State) : State :=
  let k := s.cool
  if goodCode c then
    { s with cool := { k with
        lastCode := c, temp := some (towerTemp c.toNat s.cfg.ms s.cfg.os), fault := false,
        faultSamples := 0 } }
  else if k.fault then
    { s with cool := { k with lastCode := c, faultSamples := satInc max8 k.faultSamples } }
  else
    raise .sensorFault
      { s with cool := { k with lastCode := c, fault := true, faultSamples := 1 } }

/-- The warm hold after a sample (R148, R149): a faulty sample does not test it. -/
def warmAfter (s : State) : Bool :=
  let k := s.cool
  match k.fault, k.temp with
  | false, some t =>
    if s.cfg.twarm ≤ t then true
    else if t ≤ s.cfg.twarm - s.cfg.hyst then false
    else k.warmHold
  | _, _ => k.warmHold

/-- The demand at a sample (R138, R140, R147): 0 under cool-off, DFault from the 41st faulty sample,
otherwise from the error; without a good sample the temperature term is 0 (R137). -/
def demandNow (s : State) : Nat :=
  let k := s.cool
  if k.coolOff then 0
  else if k.fault && 41 ≤ k.faultSamples then s.cfg.dfault
  else
    let e := match k.temp with
      | some t => t - s.cfg.tset
      | none => 0
    demandOf e s.cfg.dgain s.pours s.cfg.dpour

/-- The lamps of all lines follow the warm hold (R6). -/
def relampAll (s : State) : State := overLines relamp allLines s

/-- One sample, taken whole (R135). -/
def sample (c : BitVec 12) (s : State) : State :=
  let s1 := takeCode c { s with cool := { s.cool with sampleFrom := some s.now } }
  let s2 := { s1 with cool := { s1.cool with warmHold := warmAfter s1 } }
  let s3 := { s2 with cool := { s2.cool with demand := demandNow s2 } }
  let s4 := relampAll (regrant s3)
  if (s.cool.warmHold && !s4.cool.warmHold) || (s.cool.starved && !s4.cool.starved) then serve s4
  else s4

/-- A peer record going STALE is reported (R143): the grant is computed again from the demand held. -/
def staleRegrant (s : State) : State :=
  let s1 := regrant s
  if s.cool.starved && !s1.cool.starved then serve s1 else s1

/-- Cool-off goes from clear to set (R147); already set, nothing changes. -/
def beginCoolOff (s : State) : State :=
  let k := s.cool
  if k.coolOff then s
  else
    let s1 := { s with cool := { k with
      coolOff := true, demand := 0, grant := 0, starved := false, gly := false } }
    if k.starved then serve s1 else s1

/-- Cool-off is cleared; nothing is computed at once (R147). -/
def endCoolOff (s : State) : State := { s with cool := { s.cool with coolOff := false } }

/-- A glycol frame starts (R145): the grant held is latched and GLY is driven on if it is not 0. -/
def glycolFrame (s : State) : State :=
  let k := s.cool
  { s with cool := { k with
      latched := k.grant, frameFrom := some s.now, gly := 0 < k.grant } }

/-- SENSOR_SAMPLE (R135); no sample is taken while UNCONFIGURED (R151). -/
def execSensorSample (code : BitVec 12) (s : State) : Host.Outcome State Fault Refusal :=
  .next (powered s fun s => if s.station = .unconfigured then s else sample code s)

/-- GLYCOL_FRAME_START (R145); frames are stopped while UNCONFIGURED (R151). -/
def execGlycolFrameStart (s : State) : Host.Outcome State Fault Refusal :=
  .next (powered s fun s => if s.station = .unconfigured then s else glycolFrame s)

/-- GLYCOL_ON_TIME_END (R145): GLY turns off for the rest of the frame. -/
def execGlycolOnTimeEnd (s : State) : Host.Outcome State Fault Refusal :=
  .next (powered s fun s => { s with cool := { s.cool with gly := false } })

end Sys2Proof.Machine
end

