-- ==== Sys2Proof/Machine/Cleaning.lean ====
section
/-! DEFINITION. The Cleaning Sequencer (chapters 9 and 10): step entry and the advance test, the claim
of a cleaning slot, run start and run end. Meanings of CONDITION_PIN_CHANGE, FLOW_TIMEOUT,
DWELL_EXPIRY, LIMIT_EXPIRY and RUN_LIMIT_EXPIRY. -/

namespace Sys2Proof.Machine

/-- A step that no recipe gives. -/
def StepRec.blank : StepRec :=
  { outputs := .none, dwell := 0, limit := 0, kind := .allSet, mask := .none, pattern := .none,
    pulses := 0, next := .leave, faultNext := .leave }

/-- The step record of an index (R154). -/
def State.stepAt (s : State) (n : Nat) : StepRec := s.cfg.steps.getD n .blank

/-- The lines selected by the current run, ascending; none in IDLE (R173). -/
def State.selected (s : State) : List LineNo :=
  match s.clean.job with
  | some j => linesOf j.lines
  | none => []

/-- Change the sequencer's own state. -/
def modClean (f : Cleaning → Cleaning) (s : State) : State := { s with clean := f s.clean }

/-- Every selected line's step count has reached the current step's step pulses (R160). -/
def volumeReached (s : State) (pulses : Nat) : Bool :=
  s.selected.all fun i => pulses ≤ s.clean.stepCounts[i]

/-- FAUCETS on or off for the selected lines (R163): a closed valve opens at full drive, an open one
stays; without FAUCETS they close. -/
def applyFaucets (on : Bool) (s : State) : State :=
  overLines (fun i s => setValve i (if on then (s.line i).valve.opened s.now else .closed) s)
    s.selected s

/-- The outputs of a step are applied (R162 step 4, R163); COOL-OFF is handed to the Cooling
Controller. -/
def applyOutputs (o : Outputs) (s : State) : State :=
  let s1 := applyFaucets o.faucets (modClean (fun c => { c with out := o }) s)
  if o.coolOff then beginCoolOff s1 else endCoolOff s1

/-- A step is entered (R162), the run clock running on from `runFrom`. -/
def enterStep (n runFrom : Nat) (s : State) : State :=
  let st := s.stepAt n
  applyOutputs st.outputs (modClean (fun c => { c with
    progress := some { step := n, phase := .dwell, stepFrom := s.now, runFrom },
    stepCounts := Vector.replicate 8 0,
    flags := { c.flags with volume := st.pulses = 0 } }) s)

/-- The release of a selected line at run end (R27, R184): READY without a lock reason, or
CLEAN-INCOMPLETE and LOCKED; OFF in either case while the station is not RUNNING. -/
def releaseLine (incomplete : Bool) (i : LineNo) (s : State) : State :=
  let up := s.station == .running
  if incomplete then
    setState i (if up then .locked else .off) (setLock i .cleanIncomplete s)
  else
    setState i (if up then .ready else .off) (s.setLine i { s.line i with lock := .clear })

/-- A record written by the run spends one of its slots (R69, R173). -/
def writeRunRecord (mk : BitVec 16 → Record) (s : State) : State :=
  modClean (fun c => { c with slots := c.slots - 1 }) (writeRecord mk s)

/-- The WASTE record of one selected line at run end (R73, R182 step 3): written when its beer-out
count or creep count is above 0. -/
def wasteLine (j : Job) (i : LineNo) (s : State) : State :=
  let l := s.line i
  let c := s.lineCfg i
  let b := s.clean.beerOut[i] + l.creep
  if b = 0 then s
  else
    let vr := pourVolume c.k c.g 0 b
    let s1 := writeRunRecord (fun seq => .waste
      { seq, start := j.start, line := i, source := c.source, gen := (s.source c.source).gen,
        pulses := b, volume := vr, run := s.clean.runNumber }) s
    addOwn c.source vr (s1.setLine i { s1.line i with creep := 0 })

/-- The CLEAN record (R74); its duration is station seconds less the run start, modulo 2^32, saturating
at 65535 (log 20). -/
def writeClean (j : Job) (result : RunResult) (last : Option Nat) (s : State) : State :=
  writeRunRecord (fun seq => .clean
    { seq, start := j.start, duration := sat max16 (s.seconds - j.start).toNat,
      run := s.clean.runNumber, entry := j.entry, lines := j.lines, result, lastStep := last }) s

/-- The unspent slots are returned, and the arbiter serves the list when any are (R67, R78). -/
def returnSlots (s : State) : State :=
  let n := s.clean.slots
  let s1 := modClean (fun c => { c with slots := 0 })
    { s with journal := { s.journal with reserved := s.journal.reserved - n } }
  if 0 < n then serve s1 else s1

/-- The run returns to IDLE (R182 step 7, R183 step 4). -/
def goIdle (s : State) : State :=
  modClean (fun c => { c with runState := .idle, job := none, age := 0 }) s

/-- A run ends from RUNNING (R168, R182). -/
def endRunning (result : RunResult) (s : State) : State :=
  match s.clean.job, s.clean.progress with
  | some j, some p =>
    let sel := linesOf j.lines
    let s1 := endCoolOff (applyFaucets false (modClean (fun c => { c with
      progress := none, flowFrom := none, out := .none }) s))
    let s2 := overLines (wasteLine j) sel s1
    let s3 := returnSlots (writeClean j result (some p.step) s2)
    let s4 := overLines (releaseLine (result != .completed)) sel s3
    let s5 := modClean (fun c => { c with
      beerOut := Vector.replicate 8 0, stepCounts := Vector.replicate 8 0,
      flags := { c.flags with flow := false, volume := false } }) s4
    raise .cleanEnd (requestStatus (goIdle s5))
  | _, _ => s

/-- What the early end of a run does to one selected line (R183 step 1): a marked line has its mark
withdrawn, a RESERVED line is released. -/
def withdrawOrRelease (i : LineNo) (s : State) : State :=
  let l := s.line i
  if l.cleanMark then s.setLine i { l with cleanMark := false }
  else if l.state = .reserved then releaseLine false i s
  else s

/-- A run ends from PREPARING or CLAIMING (R183). -/
def endEarly (s : State) : State :=
  match s.clean.job with
  | some j =>
    let claimed := s.clean.runState == .claiming
    let s1 := overLines withdrawOrRelease (linesOf j.lines) s
    let s2 := goIdle (returnSlots (writeClean j .aborted none s1))
    raise .cleanEnd (if claimed then requestStatus s2 else s2)
  | none => s

/-- A run that is not IDLE ends with result ABORTED (R185, R186). -/
def abortRun (s : State) : State :=
  match s.clean.runState with
  | .idle => s
  | .preparing => endEarly s
  | .claiming => endEarly s
  | .running => endRunning .aborted s

/-- A step takes its next (R168): a step index is entered, END ends the run COMPLETED. -/
def takeNext (p : Progress) (s : State) : State :=
  match (s.stepAt p.step).next with
  | .step n => enterStep n p.runFrom s
  | .leave => endRunning .completed s

/-- A step takes its fault next (R168): a step index is entered, FAIL ends the run FAILED. -/
def takeFaultNext (p : Progress) (s : State) : State :=
  match (s.stepAt p.step).faultNext with
  | .step n => enterStep n p.runFrom s
  | .leave => endRunning .failed s

/-- The value of the current step's advance test (R161, R172). -/
def testValue (p : Progress) (s : State) : Bool := advanceTest (s.stepAt p.step) s.clean.flags

/-- After a flag change: in TESTING the advance test is made, and a true test takes the next (R165). -/
def afterFlagChange (s : State) : State :=
  match s.clean.runState, s.clean.progress with
  | .running, some p =>
    if p.phase = .testing && testValue p s then takeNext p s else s
  | _, _ => s

/-- The single expiry of a step whose limit equals its dwell (R166): the test is made once. -/
def singleExpiry (p : Progress) (s : State) : State :=
  if testValue p s then takeNext p s else takeFaultNext p s

/-- The dwell expiry (R164). -/
def dwellExpires (p : Progress) (s : State) : State :=
  let st := s.stepAt p.step
  match p.phase with
  | .testing => s
  | .dwell =>
    if st.limit = st.dwell then singleExpiry p s
    else if testValue p s then takeNext p s
    else modClean (fun c => { c with progress := some { p with phase := .testing } }) s

/-- The limit expiry (R166): a step with limit 0 has none, and before the dwell it is not due unless
limit and dwell are equal. -/
def limitExpires (p : Progress) (s : State) : State :=
  let st := s.stepAt p.step
  if st.limit = 0 then s
  else match p.phase with
    | .testing => takeFaultNext p s
    | .dwell => if st.limit = st.dwell then singleExpiry p s else s

/-- A step event, which acts only on a run in RUNNING (R168). -/
def stepEvent (f : Progress → State → State) (s : State) : State :=
  match s.clean.runState, s.clean.progress with
  | .running, some p => f p s
  | _, _ => s

/-- The run enters CLAIMING (R176). -/
def enterClaiming (s : State) : State :=
  requestStatus (modClean (fun c => { c with runState := .claiming, age := 0, ahead := 0 }) s)

/-- A selected line still has a pour in POURING or AFTER-RUN (R176). -/
def stillPouring (s : State) (i : LineNo) : Bool :=
  (s.line i).state == .pouring || (s.line i).state == .afterRun

/-- In PREPARING, when no selected line is still pouring, the run enters CLAIMING (R175 step 5,
R176). -/
def checkPrepared (s : State) : State :=
  if s.clean.runState = .preparing && !(s.selected.any (stillPouring s)) then enterClaiming s else s

/-- The line set becomes CLEANING (R27, R179 step 2). -/
def activate (i : LineNo) (s : State) : State :=
  if (s.line i).state = .reserved then setState i .cleaning s else s

/-- The run enters RUNNING (R171, R179). -/
def enterRunning (s : State) : State :=
  match s.clean.job with
  | some j =>
    let s1 := overLines activate (linesOf j.lines)
      (modClean (fun c => { c with runState := .running }) s)
    let s2 := modClean (fun c => { c with
      beerOut := Vector.replicate 8 0, flowFrom := none,
      flags := { c.flags with flow := false } }) (requestStatus s1)
    enterStep (if j.entry = 1 then s.cfg.entry1 else s.cfg.entry2) s.now s2
  | none => s

/-- A claimant that ranks ahead of own station (R178). -/
def ranksAhead (ownAge ownStation : Nat) (station : Nat) (p : PeerRec) : Bool :=
  p.body.clean == .claiming &&
    (ownAge < p.body.age.toNat || (p.body.age.toNat == ownAge && station < ownStation))

/-- The peer records with their station numbers, ascending (R122). -/
def State.numberedPeers (s : State) : List (Nat × PeerRec) :=
  (s.peers.toList.zipIdx 1).filterMap fun e => e.1.map fun p => (e.2, p)

/-- A + r of the claim evaluation: FRESH ACTIVE peers and FRESH claimants ranked ahead (R178). -/
def aheadCount (s : State) : Nat :=
  (s.numberedPeers.filter fun e => e.2.fresh &&
    (e.2.body.clean == .active || ranksAhead s.clean.age s.cfg.station e.1 e.2)).length

/-- The claim evaluation (R178). -/
def evaluateClaim (s : State) : State :=
  if s.clean.runState = .claiming then
    let n := aheadCount s
    let s1 := modClean (fun c => { c with ahead := n }) s
    if 2 ≤ s.clean.age && n < s.cfg.cleanSlots && !s.link.mute then enterRunning s1 else s1
  else s

/-- A success report of the station's own STATUS (R117, R177, R178). -/
def statusSuccess (s : State) : State :=
  if s.clean.runState = .claiming then
    evaluateClaim (modClean (fun c => { c with age := satInc max8 c.age }) s)
  else s

/-- A cleaning pulse on a selected line in CLEANING (R169). -/
def cleaningPulse (i : LineNo) (p : Progress) (s : State) : State :=
  let st := s.stepAt p.step
  let c := s.clean
  let s1 := modClean (fun c => { c with stepCounts := c.stepCounts.set i (satInc max16 c.stepCounts[i]) }) s
  let vol := c.flags.volume || volumeReached s1 st.pulses
  let s2 := modClean (fun d => { d with
    flags := { d.flags with volume := vol, flow := true }, flowFrom := some s.now,
    beerOut := if c.out.beerOut && !c.flags.clear
      then d.beerOut.set i (satInc max16 d.beerOut[i]) else d.beerOut }) s1
  if (vol && !c.flags.volume) || !c.flags.flow then afterFlagChange s2 else s2

/-- The hold of a pin ends: its level is taken (R158). -/
def PinHolds.settle (h : PinHolds) : CondPin → PinHolds
  | .chem => { h with chem := Option.none }
  | .clear => { h with clear := Option.none }
  | .ext => { h with ext := Option.none }

/-- A level is taken on a pin, and its flag follows (R158). -/
def takePin (pin : CondPin) (level : Bool) (s : State) : State :=
  modClean (fun c => { c with flags := c.flags.setPin pin level, holds := c.holds.settle pin }) s

/-- CONDITION_PIN_CHANGE (R158): the flag follows the level taken, in every station state and run
state; a level already taken is no change (log 30). -/
def execConditionPinChange (pin : CondPin) (level : Bool) (s : State) :
    Host.Outcome State Fault Refusal :=
  .next (powered s fun s =>
    if s.clean.flags.pin pin = level then s
    else afterFlagChange (takePin pin level s))

/-- FLOW_TIMEOUT (R159): FLOW clears and the timer stops; in TESTING the test is made. -/
def execFlowTimeout (s : State) : Host.Outcome State Fault Refusal :=
  .next (powered s fun s => stepEvent (fun _ s =>
    if s.clean.flags.flow then
      afterFlagChange (modClean (fun c => { c with
        flowFrom := none, flags := { c.flags with flow := false } }) s)
    else s) s)

/-- DWELL_EXPIRY (R164). -/
def execDwellExpiry (s : State) : Host.Outcome State Fault Refusal :=
  .next (powered s (stepEvent dwellExpires))

/-- LIMIT_EXPIRY (R166). -/
def execLimitExpiry (s : State) : Host.Outcome State Fault Refusal :=
  .next (powered s (stepEvent limitExpires))

/-- RUN_LIMIT_EXPIRY (R170): the run ends FAILED. -/
def execRunLimitExpiry (s : State) : Host.Outcome State Fault Refusal :=
  .next (powered s (stepEvent fun _ s => endRunning .failed s))

end Sys2Proof.Machine
end

