-- ==== Sys2Proof/Machine/Frames.lean ====
section
/-! DEFINITION. The frames of the cellar link as characters (R102, R103, R106, R196): the CRC, the
characters of a frame, and the judgement of each character that the receive assembly gathers. -/

namespace Sys2Proof

/-- The frame delimiter, A5h (R196). -/
def delimiter : Byte := 0xA5

/-- The kind code of a STATUS frame, 53h (R196). -/
def kindStatus : Byte := 0x53

/-- The kind code of a CHANGE frame, 43h (R196). -/
def kindChange : Byte := 0x43

/-- One bit of the CRC, most significant first: x¹⁶ + x¹² + x⁵ + 1 (R103). -/
def crcBit (c : BitVec 16) : BitVec 16 :=
  if c.getLsbD 15 then (c <<< 1) ^^^ 0x1021#16 else c <<< 1

/-- One character of the CRC (R103). -/
def crcByte (c : BitVec 16) (b : Byte) : BitVec 16 :=
  crcBit (crcBit (crcBit (crcBit (crcBit (crcBit (crcBit (crcBit (c ^^^ (b ++ 0#8)))))))))

/-- The CRC over a run of characters, from all ones, with no final inversion (R103). -/
def crc16 (cs : List Byte) : BitVec 16 := cs.foldl crcByte 0xFFFF#16

/-- The characters of a STATUS entry (R196). -/
def LinkEntry.chars (e : LinkEntry) : List Byte :=
  e.source :: e.gen :: (if e.empty then 1 else 0) :: (bytes32 e.full ++ bytes32 e.cum)

/-- The code of a station state on the link (R196). -/
def Announced.byte : Announced → Byte
  | .stopped => 0
  | .running => 1

/-- The code of a clean state on the link (R196). -/
def CleanState.byte : CleanState → Byte
  | .none => 0
  | .claiming => 1
  | .active => 2

/-- The payload of a STATUS frame (R108, R196). -/
def StatusBody.chars (b : StatusBody) : List Byte :=
  b.running.byte :: b.demand :: b.clean.byte :: b.age :: BitVec.ofNat 8 b.entries.length ::
    b.entries.flatMap LinkEntry.chars

/-- The payload of a CHANGE frame (R109, R196). -/
def ChangeBody.chars (b : ChangeBody) : List Byte := b.source :: b.gen :: bytes32 b.full

/-- The characters that the CRC covers: kind, station number, payload length and payload (R103). -/
def LinkFrame.covered (f : LinkFrame) : List Byte :=
  match f.body with
  | .status b => kindStatus :: f.station :: BitVec.ofNat 8 b.chars.length :: b.chars
  | .change b => kindChange :: f.station :: BitVec.ofNat 8 b.chars.length :: b.chars

/-- The characters of a frame in the order sent (R102). -/
def LinkFrame.chars (f : LinkFrame) : List Byte :=
  delimiter :: (f.covered ++ bytes16 (crc16 f.covered))

/-- The station state of a STATUS payload (R106, R196). -/
def Announced.ofByte (b : Byte) : Option Announced :=
  if b = 0 then some .stopped else if b = 1 then some .running else none

/-- The clean state of a STATUS payload (R106, R196). -/
def CleanState.ofByte (b : Byte) : Option CleanState :=
  if b = 0 then some .none else if b = 1 then some .claiming
  else if b = 2 then some .active else Option.none

/-- The entries of a STATUS payload, eleven characters each; the bits of the flags character other
than the empty flag are ignored (R106, R196). -/
def parseEntries : List Byte → Option (List LinkEntry)
  | [] => some []
  | s :: g :: f :: a3 :: a2 :: a1 :: a0 :: c3 :: c2 :: c1 :: c0 :: rest =>
    (parseEntries rest).map fun es =>
      { source := s, gen := g, empty := f.getLsbD 0, full := be32 a3 a2 a1 a0,
        cum := be32 c3 c2 c1 c0 } :: es
  | _ => none

/-- The content checks of a STATUS payload (R106). -/
def parseStatus : List Byte → Option StatusBody
  | st :: d :: cl :: age :: n :: rest =>
    match Announced.ofByte st, CleanState.ofByte cl, parseEntries rest with
    | some state, some clean, some entries =>
      if entries.length = n.toNat ∧ n.toNat ≤ 8 then
        some { running := state, demand := d, clean, age, entries }
      else none
    | _, _, _ => none
  | _ => none

/-- The payload of a CHANGE frame has no content check (R106). -/
def parseChange : List Byte → Option ChangeBody
  | [s, g, f3, f2, f1, f0] => some { source := s, gen := g, full := be32 f3 f2 f1 f0 }
  | _ => none

/-- A frame whose CRC matches, from its kind, station number and payload (R106). -/
def parseFrame (kind station : Byte) (payload : List Byte) : Option LinkFrame :=
  if kind = kindStatus then (parseStatus payload).map fun b => ⟨station, .status b⟩
  else if kind = kindChange then (parseChange payload).map fun b => ⟨station, .change b⟩
  else none

/-- The payload lengths that fit a kind (R102). -/
def lengthFits (kind : Byte) (n : Nat) : Bool :=
  if kind = kindStatus then 5 ≤ n && n ≤ 93 && (n - 5) % 11 == 0 else n == 6

/-- What a character taken in ASSEMBLY does to the frame being gathered (R104, R105). -/
inductive RxVerdict where
  | more
  | fail (check : RxCheck)
  | done (frame : LinkFrame)
deriving DecidableEq, Repr

/-- The checks of R105 at the position of a character, after the characters already gathered. The content
checks (R106) count as checks that the low CRC character fails (DESIGN CHOICE, log 39). -/
def judgeChar (chars : List Byte) (v : Byte) (err : Bool) : RxVerdict :=
  if err then .fail .character
  else match chars with
    | [] => if v = kindStatus ∨ v = kindChange then .more else .fail .kind
    | [_] => if stationInRange v then .more else .fail .station
    | [kind, _] => if lengthFits kind v.toNat then .more else .fail .length
    | kind :: station :: len :: rest =>
      let n := len.toNat
      if rest.length < n + 1 then .more
      else
        let payload := rest.take n
        if be16 (rest.getD n 0) v ≠ crc16 (kind :: station :: len :: payload) then .fail .crc
        else match parseFrame kind station payload with
          | some f => .done f
          | none => .fail .content

end Sys2Proof
end

