-- ==== Sys2Proof/Machine/Link.lean ====
section
/-! DEFINITION. The Link Controller and the Peer Table (chapters 6 and 7): receive assembly, duplicate
station, transmission, collisions, and the application of a peer's STATUS. Meanings of the link rows
and of PEER_EXPIRY. -/

namespace Sys2Proof.Machine

/-- Change the Link Controller's own state. -/
def modLink (f : Link → Link) (s : State) : State := { s with link := f s.link }

/-- The place of a station number 1..32 in the Peer Table (R122). -/
def peerIndex (station : Byte) : Option (Fin 32) :=
  if h : 1 ≤ station.toNat ∧ station.toNat ≤ 32 then some ⟨station.toNat - 1, by omega⟩ else none

/-- The peer record of a station number, if the table holds one (R122). -/
def State.peer (s : State) (n : Fin 32) : Option PeerRec := s.peers[n]

/-- Store a peer record. -/
def State.setPeer (s : State) (n : Fin 32) (p : Option PeerRec) : State :=
  { s with peers := s.peers.set n p }

/-- A peer STATUS is applied (R125), in the order of its steps. -/
def applyStatus (n : Fin 32) (b : StatusBody) (s : State) : State :=
  let stored := match s.peer n with
    | some p => p.body.entries
    | none => []
  let s1 := processEntries stored b.entries s
  let s2 := s1.setPeer n (some { fresh := true, lastAt := s.now, body := b })
  evaluateClaim (lowTests stored b.entries s2)

/-- The duplicate-station response (R118). -/
def duplicateStation (s : State) : State :=
  let k := s.link
  let s1 :=
    if k.mute then s
    else
      let s2 := modLink (fun k => { k with
        mute := true, statusReq := false, changes := [], current := none,
        drops := sat max16 (k.drops + k.changes.length) }) s
      if k.changes.isEmpty then s2 else raise .linkDrop s2
  raise .mute s1

/-- A valid frame is handed on by its station number and its kind (R107). -/
def handFrame (f : LinkFrame) (s : State) : State :=
  if f.station.toNat = s.cfg.station then duplicateStation s
  else match f.body with
    | .change b => takeChange b s
    | .status b =>
      match peerIndex f.station with
      | some n => applyStatus n b s
      | none => s

/-- The counter that a failed check raises (R105). -/
def countCheck (c : RxCheck) (k : Link) : Link :=
  match c with
  | .character => { k with charErr := satInc max16 k.charErr }
  | .crc => { k with crcErr := satInc max16 k.crcErr }
  | _ => { k with formatErr := satInc max16 k.formatErr }

/-- A frame is discarded (R104, R105): one counter rises, and the assembly goes to DISCARD, or to HUNT
when the failed check is the gap. DESIGN CHOICE (log 39): a frame whose CRC matches and whose content fails
(R106) goes to DISCARD as well; the fifth row of R104's table would have the judged frame lead to HUNT. -/
def discardFrame (c : RxCheck) (s : State) : State :=
  modLink (fun k => { countCheck c k with rx := if c = .gap then .hunt else .discard }) s

/-- A frame arrives (R107). The assembly goes to HUNT and the frame is handed on; a frame that fails a
check after all is discarded as a format error (R105, log 16), which leads to DISCARD (log 39). -/
def arriveFrame (f : LinkFrame) (s : State) : State :=
  if f.wf then handFrame f (modLink (fun k => { k with rx := .hunt }) s)
  else discardFrame .content s

/-- The station state it announces (R108). -/
def announcedState (s : State) : Announced :=
  if s.station = .running then .running else .stopped

/-- The clean state it announces, by the run state (R173). -/
def announcedClean (s : State) : CleanState :=
  match s.clean.runState with
  | .idle => .none
  | .preparing => .none
  | .claiming => .claiming
  | .running => .active

/-- The STATUS frame built from the station's state (R96, R108). -/
def buildStatus (s : State) : LinkFrame :=
  { station := BitVec.ofNat 8 s.cfg.station,
    body := .status
      { running := announcedState s, demand := BitVec.ofNat 8 s.cool.demand,
        clean := announcedClean s,
        age := if announcedClean s = .none then 0 else BitVec.ofNat 8 s.clean.age,
        entries := ownEntries s } }

/-- The frame of an attempt: a STATUS is built afresh, a CHANGE is the oldest of its list (R108,
R109, R110). -/
def attemptFrame (kind : CurrentKind) (s : State) : Option LinkFrame :=
  match kind with
  | .status => some (buildStatus s)
  | .change => s.link.changes.head?.map fun b => ⟨BitVec.ofNat 8 s.cfg.station, .change b⟩

/-- The wait of the current frame in bit-times (R113). -/
def accessWait (station k : Nat) : Nat :=
  if k = 0 then 30 else 30 + 22 * (((station - 1) + 5 * k) % 32)

/-- The end of the stop bit of the nth of characters sent back to back from a moment, at 11 bit-times a
character (R100, R102). -/
def charEnd (began n : Nat) : Nat := began + n * (11 * bitTime)

/-- The moment from which the idle time counts, once an own character has been judged that ends at a moment:
the end of that character, or of one that has started since (R101). -/
def idleAfter (seen : Option Nat) (ends : Nat) : Nat :=
  match seen with
  | some t => max t ends
  | none => ends

/-- The idle wait runs out (R113): the driver is enabled and the first character begins, which
restarts the idle time (R101); an attempt of a STATUS empties its slot (R111). -/
def startAttempt (s : State) : State :=
  match s.link.current, s.link.tx with
  | some c, none =>
    match attemptFrame c.kind s with
    | some f => modLink (fun k => { k with
        rx := .readback, tx := some { chars := f.chars, sent := 0, began := s.now },
        drive := some { chars := f.chars, began := s.now, ends := charEnd s.now f.chars.length },
        statusReq := if c.kind = .status then false else k.statusReq,
        idleFrom := some (charEnd s.now 1) }) s
    | none => s
  | _, _ => s

/-- The current CHANGE leaves its list, where it stands oldest (R110). -/
def leaveList (kind : CurrentKind) (k : Link) : Link :=
  if kind = .change then { k with changes := k.changes.tail } else k

/-- The attempt is over after the nth character of its frame: the driver goes on to the end of that
character's stop bit (R100, R114, R117), from which the idle time counts unless a character seen since then
ends later (R101), and the assembly passes through DISCARD (R104, log 22). -/
def release (t : TxFrame) (n : Nat) (k : Link) : Link :=
  { k with
    tx := none, rx := .discard, idleFrom := some (idleAfter k.idleFrom (charEnd t.began n)),
    drive := k.drive.map fun d => { d with ends := charEnd t.began n } }

/-- A frame that has met eight collisions is dropped (R116). -/
def dropFrame (kind : CurrentKind) (s : State) : State :=
  let s1 := modLink (fun k => { leaveList kind k with
    current := none, drops := satInc max16 k.drops }) s
  selectFrame (if kind = .change then raise .linkDrop s1 else s1)

/-- A collision on the character being sent (R114). -/
def collide (s : State) : State :=
  match s.link.tx, s.link.current with
  | some t, some c =>
    let s1 := modLink (fun k => { release t (t.sent + 1) k with
      collisions := satInc max16 k.collisions }) s
    if c.k + 1 = 8 then dropFrame c.kind s1
    else modLink (fun k => { k with current := some { c with k := c.k + 1 } }) s1
  | _, _ => s

/-- An attempt succeeds (R117): a STATUS success is reported to the Cleaning Sequencer, and the next
frame is chosen. -/
def succeed (s : State) : State :=
  match s.link.tx, s.link.current with
  | some t, some c =>
    let s1 := modLink (fun k => { leaveList c.kind (release t t.chars.length k) with
      current := none }) s
    selectFrame (if c.kind = .status then statusSuccess s1 else s1)
  | _, _ => s

/-- A character read back while the driver is enabled (R104, R114, R117). The next character follows back
to back, and its start restarts the idle time (R101, R102). -/
def readBack (t : TxFrame) (v : Byte) (err : Bool) (s : State) : State :=
  if err || t.chars[t.sent]? != some v then collide s
  else if t.sent + 1 = t.chars.length then succeed s
  else modLink (fun k => { k with
    tx := some { t with sent := t.sent + 1 },
    idleFrom := some (idleAfter k.idleFrom (charEnd t.began (t.sent + 2))) }) s

/-- A character is taken (R101, R104, R105). -/
def takeChar (v : Byte) (err : Bool) (s : State) : State :=
  match s.link.rx with
  | .off => s
  | .discard => s
  | .hunt =>
    if err then discardFrame .character s
    else if v = delimiter then modLink (fun k => { k with rx := .assembly [] }) s
    else discardFrame .delimiter s
  | .assembly chars =>
    match judgeChar chars v err with
    | .more => modLink (fun k => { k with rx := .assembly (chars ++ [v]) }) s
    | .fail c => discardFrame c s
    | .done f => arriveFrame f s
  | .readback =>
    match s.link.tx with
    | some t => readBack t v err s
    | none => s

/-- A frame is being looked for or gathered, so a frame can arrive and a character can fail a check; in
DISCARD every character is ignored (R104, R105). -/
def RxState.listening : RxState → Bool
  | .hunt => true
  | .assembly _ => true
  | _ => false

/-- VALID_FRAME_ARRIVAL (R107): taken in HUNT and ASSEMBLY (R104, log 16). -/
def execValidFrameArrival (frame : LinkFrame) (s : State) : Host.Outcome State Fault Refusal :=
  .next (powered s fun s => if s.link.rx.listening then arriveFrame frame s else s)

/-- FRAME_DISCARDED (R105): characters taken in DISCARD are counted nowhere (R104). -/
def execFrameDiscarded (check : RxCheck) (s : State) : Host.Outcome State Fault Refusal :=
  .next (powered s fun s => if s.link.rx.listening then discardFrame check s else s)

/-- IDLE_GAP_EXPIRY (R104). -/
def execIdleGapExpiry (s : State) : Host.Outcome State Fault Refusal :=
  .next (powered s fun s => match s.link.rx with
    | .discard => modLink (fun k => { k with rx := .hunt }) s
    | .assembly _ => discardFrame .gap s
    | _ => s)

/-- ANNOUNCEMENT_TIMER_EXPIRY (R111): the timer, stopped while UNCONFIGURED (R121), runs on and a
STATUS is requested. -/
def execAnnouncementTimerExpiry (s : State) : Host.Outcome State Fault Refusal :=
  .next (powered s fun s =>
    if s.station = .unconfigured then s
    else requestStatus (modLink (fun k => { k with announceFrom := some s.now }) s))

/-- ACCESS_WAIT_EXPIRY (R113): a station in MUTE, or UNCONFIGURED, transmits no frame. -/
def execAccessWaitExpiry (s : State) : Host.Outcome State Fault Refusal :=
  .next (powered s fun s =>
    if s.link.mute || s.station == .unconfigured then s else startAttempt s)

/-- COLLISION (R114). -/
def execCollision (s : State) : Host.Outcome State Fault Refusal := .next (powered s collide)

/-- TRANSMIT_SUCCESS (R117). -/
def execTransmitSuccess (s : State) : Host.Outcome State Fault Refusal := .next (powered s succeed)

/-- A FRESH record has reached 3000 ms since its last STATUS (R127). -/
def PeerRec.expired (p : PeerRec) (now : Nat) : Bool := p.fresh && p.lastAt + staleTime ≤ now

/-- PEER_EXPIRY (R127, R128, R129): a FRESH record at 3000 ms goes STALE and is reported to the Cooling
Controller (R143) and the Cleaning Sequencer (R178); after an arrival that came first there is no
expiry. -/
def execPeerExpiry (station : Byte) (s : State) : Host.Outcome State Fault Refusal :=
  .next (powered s fun s =>
    match peerIndex station with
    | none => s
    | some n =>
      match s.peer n with
      | none => s
      | some p =>
        if p.expired s.now then evaluateClaim (staleRegrant (s.setPeer n (some { p with fresh := false })))
        else s)

/-- CHARACTER_START (R101): the idle time restarts from 0 and counts from the end of the character,
11 bit-times on (R100); the receiver is off while UNCONFIGURED. -/
def execCharacterStart (s : State) : Host.Outcome State Fault Refusal :=
  .next (powered s fun s =>
    if s.link.rx = .off then s
    else modLink (fun k => { k with idleFrom := some (charEnd s.now 1) }) s)

/-- CHARACTER_TAKEN (R101, R104). -/
def execCharacterTaken (value : Byte) (err : Bool) (s : State) : Host.Outcome State Fault Refusal :=
  .next (powered s (takeChar value err))

end Sys2Proof.Machine
end

