-- ==== Sys2Proof/Machine/Operands.lean ====
section
/-! DEFINITION. Operand forms: the items of the configuration image and their checks (R198), and the
encodings of the fields of a response (R195) and of a journal record (R197). -/

namespace Sys2Proof.Machine

/-- A byte of the image. -/
def imgByte (img : List Byte) (off : Nat) : Byte := img.getD off 0

/-- An 8-bit item of the image. -/
def u8 (img : List Byte) (off : Nat) : Nat := (imgByte img off).toNat

/-- A 16-bit item, high byte first. -/
def w16 (img : List Byte) (off : Nat) : BitVec 16 := be16 (imgByte img off) (imgByte img (off + 1))

/-- An unsigned 16-bit item. -/
def u16 (img : List Byte) (off : Nat) : Nat := (w16 img off).toNat

/-- A signed 16-bit item in two's complement (R195). -/
def s16 (img : List Byte) (off : Nat) : Int := (w16 img off).toInt

/-- A 32-bit item. -/
def u32 (img : List Byte) (off : Nat) : Nat :=
  (be32 (imgByte img off) (imgByte img (off + 1)) (imgByte img (off + 2)) (imgByte img (off + 3))).toNat

/-- A number in a range, both ends included. -/
def inRange (lo hi n : Nat) : Bool := lo ≤ n && n ≤ hi

/-- A signed number in a range, both ends included. -/
def inRangeInt (lo hi n : Int) : Bool := lo ≤ n && n ≤ hi

/-- The checks of the station part, by item index (R198). -/
def stationChecks (img : List Byte) : List (Nat × Bool) :=
  let steps := u8 img 24
  [ (1, inRange 1 32 (u8 img 0)),
    (2, u8 img 1 ≤ 8),
    (3, inRange 250 2000 (u16 img 2) && u16 img 2 % 50 == 0),
    (4, inRange 1 2040 (u16 img 4)),
    (5, inRangeInt (-400) 800 (s16 img 6)),
    (6, inRangeInt (-350) 800 (s16 img 8)),
    (7, inRange 5 50 (u8 img 10)),
    (9, u8 img 12 ≤ 63),
    (11, inRange 1 4095 (u16 img 14)),
    (12, inRangeInt (-1000) 1000 (s16 img 16)),
    (13, inRange 1 8 (u8 img 18)),
    (14, inRange 5 60 (u8 img 19)),
    (15, u8 img 20 ≤ 10),
    (16, inRange 1 8 (u8 img 21)),
    (17, inRange 10 240 (u8 img 22)),
    (18, [16, 32, 48, 56].contains (u8 img 23)),
    (19, inRange 1 24 steps),
    (20, u8 img 25 < steps),
    (21, u8 img 26 < steps) ]

/-- The offset of a line part (R198). -/
def lineOff (n : Nat) : Nat := 27 + 17 * n

/-- The checks of a line below the line count; the presets are checked on a FREE line (R51, R198). -/
def lineChecks (img : List Byte) (n : Nat) : List (Nat × Bool) :=
  let o := lineOff n
  let x := 32 + 16 * n
  let free := u8 img (o + 1) == 0
  [ (x + 1, u8 img o ≤ 15),
    (x + 2, u8 img (o + 1) ≤ 1),
    (x + 3, inRange 50 2000 (u16 img (o + 2))),
    (x + 5, inRangeInt (-512) 511 (s16 img (o + 6))),
    (x + 7, inRange 4 255 (u8 img (o + 10))),
    (x + 8, inRange 5 50 (u8 img (o + 11))),
    (x + 10, !free || inRange 100 20000 (u16 img (o + 13))),
    (x + 11, !free || inRange 100 20000 (u16 img (o + 15))) ]

/-- The offset of a step record (R198). -/
def stepOff (j : Nat) : Nat := 227 + 12 * j

/-- The checks of a step below the step count (R156, R198). -/
def stepChecks (img : List Byte) (steps j : Nat) : List (Nat × Bool) :=
  let o := stepOff j
  let x := 192 + 16 * j
  let target := fun n => decide (n < steps) || n == 255
  [ (x + 1, u8 img o < 128),
    (x + 2, inRange 1 4095 (u16 img (o + 1))),
    (x + 3, u16 img (o + 3) == 0 || inRange (u16 img (o + 1)) 4095 (u16 img (o + 3))),
    (x + 4, u8 img (o + 5) ≤ 2),
    (x + 5, u8 img (o + 6) < 32),
    (x + 6, u8 img (o + 7) < 32),
    (x + 8, target (u8 img (o + 10))),
    (x + 9, target (u8 img (o + 11))) ]

/-- The checks of the image in ascending item index (R192, R198). -/
def imageChecks (img : List Byte) : List (Nat × Bool) :=
  let steps := min (u8 img 24) 24
  stationChecks img ++ (List.range (min (u8 img 1) 8)).flatMap (lineChecks img) ++
    (List.range steps).flatMap (stepChecks img steps)

/-- The first item that fails, by its index; an image of the wrong length fails at index 0 (R192,
R198). -/
def imageFault (img : List Byte) : Option Nat :=
  if img.length != 515 then some 0
  else ((imageChecks img).find? fun c => !c.2).map Prod.fst

/-- The items of a line (R198). -/
def loadLine (img : List Byte) (n : Nat) : LineCfg :=
  let o := lineOff n
  { source := Fin.ofNat 16 (u8 img o), mode := if u8 img (o + 1) = 0 then .free else .ordered,
    k := u16 img (o + 2), g := s16 img (o + 4), oq := s16 img (o + 6), fint := u16 img (o + 8),
    foamRun := u8 img (o + 10), noFlow := u8 img (o + 11), leakLimit := u8 img (o + 12),
    presetA := u16 img (o + 13), presetB := u16 img (o + 15) }

/-- A test kind from its code (R198). -/
def TestKind.ofCode (n : Nat) : TestKind :=
  if n = 0 then .allSet else if n = 1 then .allClear else .pattern

/-- A step target from its code, FFh for END or FAIL (R198). -/
def StepTarget.ofCode (n : Nat) : StepTarget := if n = 255 then .leave else .step n

/-- The items of a step (R198). -/
def loadStep (img : List Byte) (j : Nat) : StepRec :=
  let o := stepOff j
  { outputs := .ofByte (imgByte img o), dwell := u16 img (o + 1), limit := u16 img (o + 3),
    kind := .ofCode (u8 img (o + 5)), mask := .ofByte (imgByte img (o + 6)),
    pattern := .ofByte (imgByte img (o + 7)), pulses := u16 img (o + 8),
    next := .ofCode (u8 img (o + 10)), faultNext := .ofCode (u8 img (o + 11)) }

/-- The configuration of an image (R198); items of lines at or above the line count are not used
(R192). -/
def loadCfg (img : List Byte) : Cfg :=
  let lc := u8 img 1
  let line := fun n => if n < lc then loadLine img n else .blank
  let low := fun x => u32 img (163 + 4 * x)
  { station := u8 img 0, lineCount := lc, announcePeriod := u16 img 2, cap := u16 img 4,
    tset := s16 img 6, twarm := s16 img 8, hyst := u8 img 10, dgain := u8 img 11,
    dpour := u8 img 12, dfault := u8 img 13, ms := u16 img 14, os := s16 img 16,
    pace := u8 img 18, maxPour := u8 img 19, holdWait := u8 img 20, cleanSlots := u8 img 21,
    runLimit := u8 img 22, threshold := u8 img 23, entry1 := u8 img 25, entry2 := u8 img 26,
    lines := #v[line 0, line 1, line 2, line 3, line 4, line 5, line 6, line 7],
    lowThreshold := #v[low 0, low 1, low 2, low 3, low 4, low 5, low 6, low 7, low 8, low 9,
      low 10, low 11, low 12, low 13, low 14, low 15],
    steps := (List.range (u8 img 24)).map (loadStep img) }

/-- A number in 1 byte (R195). -/
def enc1 (n : Nat) : List Byte := [BitVec.ofNat 8 n]

/-- A number in 2 bytes (R195). -/
def enc2 (n : Nat) : List Byte := bytes16 (BitVec.ofNat 16 n)

/-- A signed number in 2 bytes (R195). -/
def encInt2 (n : Int) : List Byte := bytes16 (BitVec.ofInt 16 n)

/-- A volume or station seconds in 4 bytes (R195). -/
def enc4 (n : Nat) : List Byte := bytes32 (BitVec.ofNat 32 n)

/-- Set or clear in 1 byte (R195). -/
def encBool (b : Bool) : List Byte := [if b then 1 else 0]

/-- A field that may be absent: a presence byte, and the field when present (R195). -/
def encOpt {α : Type} (f : α → List Byte) : Option α → List Byte
  | some a => 1 :: f a
  | none => [0]

/-- A list: a count byte, then the members (R195). -/
def encList {α : Type} (f : α → List Byte) (as : List α) : List Byte :=
  BitVec.ofNat 8 as.length :: as.flatMap f

/-- A set of lines as its byte, bit n for line Ln (R195). -/
def encLines (is : List LineNo) : List Byte :=
  [is.foldl (fun b i => b ||| (1#8 <<< i.val)) 0#8]

/-- Positions of the enumerated values in their lists (R195): station state (R191). -/
def StationState.code : StationState → Nat
  | .unconfigured => 0
  | .stopped => 1
  | .running => 2

/-- Line state (R1). -/
def LineState.code : LineState → Nat
  | .off => 0
  | .ready => 1
  | .waiting => 2
  | .pouring => 3
  | .afterRun => 4
  | .reserved => 5
  | .cleaning => 6
  | .locked => 7

/-- Lock reason (R2, R30). -/
def LockReason.code : LockReason → Nat
  | .clear => 0
  | .foamOut => 1
  | .leak => 2
  | .cleanIncomplete => 3

/-- Line mode (R51, R198). -/
def LineMode.code : LineMode → Nat
  | .free => 0
  | .ordered => 1

/-- Start kind (R8). -/
def StartKind.code : StartKind → Nat
  | .handle => 0
  | .keyA => 1
  | .keyB => 2

/-- Remembered key: none, A or B (R30). -/
def rememberedCode : Option Key → Nat
  | none => 0
  | some .a => 1
  | some .b => 2

/-- Pour mode (R16, R197). -/
def PourMode.code : PourMode → Nat
  | .free => 0
  | .presetA => 1
  | .presetB => 2
  | .order => 3

/-- End reason (R19, R197). -/
def EndReason.code : EndReason → Nat
  | .target => 0
  | .release => 1
  | .foamOut => 2
  | .noFlow => 3
  | .timeLimit => 4
  | .overrange => 5
  | .cancelled => 6
  | .stopped => 7

/-- Result of a run (R74, R197). -/
def RunResult.code : RunResult → Nat
  | .completed => 0
  | .failed => 1
  | .aborted => 2

/-- Run state (R173). -/
def RunState.code : RunState → Nat
  | .idle => 0
  | .preparing => 1
  | .claiming => 2
  | .running => 3

/-- Phase of a step (R157). -/
def Phase.code : Phase → Nat
  | .dwell => 0
  | .testing => 1

/-- The status codes (R195). -/
def Status.code : Status → Nat
  | .ok => 0x01
  | .badState => 0x02
  | .badArg => 0x03
  | .badConfig => 0x04
  | .queueFull => 0x05
  | .duplicate => 0x06
  | .notFound => 0x07
  | .empty => 0x08
  | .range => 0x09
  | .journalFull => 0x0A
  | .muted => 0x0B

/-- The bytes of a response frame: status byte with the OVERRUN marker in its high bit, data length,
data (R195). -/
def Response.chars (r : Response) : List Byte :=
  BitVec.ofNat 8 (r.status.code + if r.overrun then 0x80 else 0) ::
    (enc2 r.data.length ++ r.data)

/-- The presence byte of a record: bit 0 order tag, bit 1 target volume, bit 2 creep fields, bit 3
last step (R197). -/
def presence (tag target creep last : Bool) : Byte :=
  BitVec.ofBoolListLE [tag, target, creep, last, false, false, false, false]

/-- An optional field of a record, present by its bit in the presence byte (R197). -/
def optField {α : Type} (f : α → List Byte) : Option α → List Byte
  | some a => f a
  | none => []

/-- A journal record as TAKE-RECORD returns it (R197). -/
def Record.chars : Record → List Byte
  | .pour r =>
    bytes16 r.seq ++ [0x01, presence r.tag.isSome r.target.isSome r.creep.isSome false] ++
    bytes32 r.start ++ enc2 r.duration ++ enc1 r.line.val ++ enc1 r.source.val ++ [r.gen] ++
    enc1 r.mode.code ++ enc1 r.endReason.code ++ enc2 r.total ++ enc2 r.foam ++ enc4 r.volume ++
    optField bytes16 r.tag ++ optField enc2 r.target ++
    optField (fun c => enc2 c.1 ++ enc4 c.2) r.creep
  | .waste r =>
    bytes16 r.seq ++ [0x02, 0x00] ++ bytes32 r.start ++ enc1 r.line.val ++ enc1 r.source.val ++
    [r.gen] ++ bytes16 r.run ++ enc4 r.pulses ++ enc4 r.volume
  | .clean r =>
    bytes16 r.seq ++ [0x03, presence false false false r.lastStep.isSome] ++ bytes32 r.start ++
    enc2 r.duration ++ bytes16 r.run ++ enc1 r.entry ++ [r.lines] ++ enc1 r.result.code ++
    optField enc1 r.lastStep

end Sys2Proof.Machine
end

