-- ==== Sys2Proof/Machine/Pour.lean ====
section
/-! DEFINITION. The Line Units (chapters 1 to 3): tower events, meter pulses, the end and the
completion of a pour. Meanings of the tower rows, of METER_PULSE and of STATION_SECONDS_TICK. -/

namespace Sys2Proof.Machine

/-- The pour of a line ends (R19): the reason is recorded, the valve closes and its duration is fixed,
the after-run timer starts. -/
def endPour (i : LineNo) (reason : EndReason) (s : State) : State :=
  let l := s.line i
  match l.pour with
  | some p =>
    relamp i (s.setLine i { l with
      state := .afterRun, valve := .closed, afterRunFrom := some s.now,
      pour := some { p with
        endReason := some reason, duration := some (tenMs s.now p.openedAt) } })
  | none => s

/-- A cause of R19 acts while the line is POURING. -/
def endIfPouring (i : LineNo) (reason : EndReason) (s : State) : State :=
  if (s.line i).state = .pouring then endPour i reason s else s

/-- The interval of a pour pulse (R34). -/
def pulseInterval (l : Line) (now : Nat) : Nat :=
  match l.intervalFrom with
  | some t => intervalTicks now t
  | none => max16

/-- The class of a pour pulse (R35): the first pulse of a pour is beer, and Fint 0 disables foam. -/
def isFoam (c : LineCfg) (p : PourCtx) (interval : Nat) : Bool :=
  p.total != 0 && c.fint != 0 && interval < c.fint

/-- The counts of a pour after a pulse (R36); at 65535 total pulses nothing more is counted. -/
def countPulse (foam : Bool) (p : PourCtx) : PourCtx :=
  if max16 ≤ p.total then p
  else { p with total := p.total + 1, foam := if foam then p.foam + 1 else p.foam }

/-- The consecutive-foam count after a pulse (R36, R37). -/
def foamRunAfter (foam : Bool) (p : PourCtx) (n : Nat) : Nat :=
  if max16 ≤ p.total then n else if foam then satInc max8 n else 0

/-- The end that a pulse taken while POURING meets, first in the order TARGET, FOAM-OUT, OVERRANGE
(R17). -/
def pulseEnd (c : LineCfg) (p : PourCtx) (consec : Nat) : Option EndReason :=
  if (p.pulseTarget.map fun t => decide (t ≤ p.total - p.foam)).getD false then some .target
  else if c.foamRun ≤ consec then some .foamOut
  else if max16 ≤ p.total then some .overrange
  else none

/-- A pour pulse (R17, R20, R34 to R37). -/
def pourPulse (i : LineNo) (p : PourCtx) (s : State) : State :=
  let c := s.lineCfg i
  let l := s.line i
  let pouring := l.state == .pouring
  let foam := isFoam c p (pulseInterval l s.now)
  let p1 := countPulse foam p
  let p2 := if pouring then { p1 with noFlowFrom := s.now } else p1
  let consec := foamRunAfter foam p l.consecFoam
  let s1 := s.setLine i
    { l with pour := some p2, consecFoam := consec, intervalFrom := some s.now }
  if pouring then
    match pulseEnd c p2 consec with
    | some .foamOut => setEmpty c.source (endPour i .foamOut s1)
    | some r => endPour i r s1
    | none => s1
  else s1

/-- A creep pulse (R24, R33): the LEAK test is made on a READY or WAITING line. -/
def creepPulse (i : LineNo) (s : State) : State :=
  let c := s.lineCfg i
  let l := s.line i
  let n := satInc max16 l.creep
  let s1 := s.setLine i { l with creep := n }
  if c.leakLimit != 0 && c.leakLimit ≤ n then
    match l.state with
    | .ready => setState i .locked (setLock i .leak s1)
    | .waiting => refuseEntry i .locked (setLock i .leak s1)
    | _ => s1
  else s1

/-- A pulse on MTRn, by the state of its line (R32). -/
def takePulse (i : LineNo) (s : State) : State :=
  let l := s.line i
  if !s.configured i then s
  else match l.state with
    | .pouring | .afterRun =>
      match l.pour with
      | some p => pourPulse i p s
      | none => s
    | .cleaning => stepEvent (cleaningPulse i) s
    | _ => creepPulse i s

/-- Step 6 of a completion (R22): the line's next state. -/
def afterCompletion (i : LineNo) (p : PourCtx) (s : State) : State :=
  let l := s.line i
  let locks := p.endReason == some .foamOut && !p.foamWithdrawn && !l.cleanMark
  let s1 := s.setLine i { l with cleanMark := false }
  if s.station != .running then setState i .off (if locks then setLock i .foamOut s1 else s1)
  else if l.cleanMark then checkPrepared (setState i .reserved s1)
  else if locks then setState i .locked (setLock i .foamOut s1)
  else setState i .ready s1

/-- The start kind of a key (R8). -/
def Key.kind : Key → StartKind
  | .a => .keyA
  | .b => .keyB

/-- Step 8 of a completion (R22, R23): the remembered key is cleared and presented. -/
def presentRemembered (i : LineNo) (s : State) : State :=
  let l := s.line i
  match l.remembered with
  | some k => request i (Key.kind k) (s.setLine i { l with remembered := none })
  | none => s

/-- The creep fields of a POUR record (R42, R72). -/
def creepFields (p : PourCtx) : Option (Nat × Nat) :=
  if p.creep = 0 then none else some (p.creep, pourVolume p.k p.g 0 p.creep)

/-- The POUR record of a pour (R71). -/
def pourRecord (i : LineNo) (x : SourceNo) (gen : BitVec 8) (p : PourCtx) (seq : BitVec 16) :
    Record :=
  .pour
    { seq, start := p.start, duration := p.duration.getD 0, line := i, source := x, gen,
      mode := p.mode, tag := p.tag, target := p.target, total := p.total, foam := p.foam,
      volume := pourVolume p.k p.g p.oq (p.total - p.foam),
      endReason := p.endReason.getD .stopped, creep := creepFields p }

/-- The last-pour record of a pour (R46). -/
def lastPourOf (p : PourCtx) : LastPour :=
  let v := volumeMicro p.k p.g p.oq (p.total - p.foam)
  { endReason := p.endReason.getD .stopped, total := p.total, foam := p.foam,
    beer := p.total - p.foam, k := p.k, g := p.g, oq := p.oq, v, vr := volumeUnits v }

/-- The completion of a pour (R22), step by step. -/
def complete (i : LineNo) (p : PourCtx) (s : State) : State :=
  let x := (s.lineCfg i).source
  let vr := pourVolume p.k p.g p.oq (p.total - p.foam)
  let cv := ((creepFields p).map Prod.snd).getD 0
  let s1 := addOwn x (vr + cv) (writeRecord (pourRecord i x (s.source x).gen p) s)
  let s2 := s1.setLine i { s1.line i with
    pour := none, lastPour := some (lastPourOf p), consecFoam := 0, intervalFrom := none,
    afterRunFrom := none }
  let s3 := afterCompletion i p { s2 with pours := s2.pours - 1 }
  presentRemembered i (serve s3)

/-- A level is taken on HDLn (R4). -/
def takeHandle (i : LineNo) (closed : Bool) (s : State) : State :=
  s.setLine i { s.line i with handle := .taken closed }

/-- The line with a portion key taken closed (R4). -/
def Line.keyClosed (l : Line) : Key → Line
  | .a => { l with keyA := .taken true }
  | .b => { l with keyB := .taken true }

/-- The closing of a portion key is taken (R4). -/
def takeKey (i : LineNo) (k : Key) (s : State) : State := s.setLine i ((s.line i).keyClosed k)

/-- A high level is taken on MTRn, which is a pulse (R31). -/
def takeMeter (i : LineNo) (s : State) : State :=
  s.setLine i { s.line i with meter := .taken true }

/-- A handle press on a configured line, by its mode and state (R5). -/
def pressHandle (i : LineNo) (s : State) : State :=
  if s.ordered i then s
  else match (s.line i).state with
    | .off | .reserved | .cleaning | .locked => refuseFlash i s
    | .ready => request i .handle s
    | .waiting | .pouring | .afterRun => s

/-- The line has a HANDLE entry in the pending start list (R12). -/
def hasHandleEntry (s : State) (i : LineNo) : Bool :=
  s.starts.any fun e => e.line == i && e.kind == .handle

/-- A handle release on a configured line, by its mode and state (R5, R12). -/
def releaseHandle (i : LineNo) (s : State) : State :=
  if s.ordered i then s
  else match (s.line i).state, (s.line i).pour with
    | .waiting, _ => if hasHandleEntry s i then setState i .ready (removeStart i s) else s
    | .pouring, some p => if p.mode = .free then endPour i .release s else s
    | _, _ => s

/-- A key press on a configured line, by its state (R5, R23). -/
def pressKey (i : LineNo) (k : Key) (s : State) : State :=
  match (s.line i).state with
  | .off | .reserved | .cleaning | .locked => refuseFlash i s
  | .ready => request i (Key.kind k) s
  | .afterRun =>
    if (s.line i).remembered.isNone then s.setLine i { s.line i with remembered := some k } else s
  | .waiting | .pouring => s

/-- The line has a key entry with an expiry (R11, R12). -/
def hasKeyEntry (s : State) (i : LineNo) : Bool :=
  s.starts.any fun e => e.line == i && e.expiry.isSome

/-- HANDLE_PRESS (R4, R5): the level is taken; unconfigured lines produce no event. -/
def execHandlePress (line : LineNo) (s : State) : Host.Outcome State Fault Refusal :=
  .next (powered s fun s =>
    let s1 := takeHandle line true s
    if s.configured line then pressHandle line s1 else s1)

/-- HANDLE_RELEASE (R4, R5). -/
def execHandleRelease (line : LineNo) (s : State) : Host.Outcome State Fault Refusal :=
  .next (powered s fun s =>
    let s1 := takeHandle line false s
    if s.configured line then releaseHandle line s1 else s1)

/-- KEY_PRESS (R4, R5, R23): the level is taken; unconfigured lines produce no event. -/
def execKeyPress (line : LineNo) (key : Key) (s : State) : Host.Outcome State Fault Refusal :=
  .next (powered s fun s =>
    let s1 := takeKey line key s
    if s.configured line then pressKey line key s1 else s1)

/-- KEY_ENTRY_EXPIRY (R12): the entry is removed with refusal, and its line goes to READY. -/
def execKeyEntryExpiry (line : LineNo) (s : State) : Host.Outcome State Fault Refusal :=
  .next (powered s fun s => if hasKeyEntry s line then refuseEntry line .ready s else s)

/-- REFUSE_FLASH_END (R6): the lamp shows the pattern of the line's state. -/
def execRefuseFlashEnd (line : LineNo) (s : State) : Host.Outcome State Fault Refusal :=
  .next (powered s fun s =>
    if (s.line line).flashFrom.isSome then
      relamp line (s.setLine line { s.line line with flashFrom := none })
    else s)

/-- VALVE_HOLD_DRIVE (R7): the full drive of an open valve ends at one-third duty. -/
def execValveHoldDrive (line : LineNo) (s : State) : Host.Outcome State Fault Refusal :=
  .next (powered s fun s => match (s.line line).valve with
    | .full _ => setValve line .hold s
    | _ => s)

/-- METER_PULSE (R31, R32): the high level is taken, and the pulse goes where the line's state says. -/
def execMeterPulse (line : LineNo) (s : State) : Host.Outcome State Fault Refusal :=
  .next (powered s fun s => takePulse line (takeMeter line s))

/-- NO_FLOW_EXPIRY (R18). -/
def execNoFlowExpiry (line : LineNo) (s : State) : Host.Outcome State Fault Refusal :=
  .next (powered s (endIfPouring line .noFlow))

/-- POUR_TIMER_EXPIRY (R18). -/
def execPourTimerExpiry (line : LineNo) (s : State) : Host.Outcome State Fault Refusal :=
  .next (powered s (endIfPouring line .timeLimit))

/-- POUR_COMPLETION (R22): the after-run timer of a line in AFTER-RUN expires. -/
def execPourCompletion (line : LineNo) (s : State) : Host.Outcome State Fault Refusal :=
  .next (powered s fun s => match (s.line line).state, (s.line line).pour with
    | .afterRun, some p => complete line p s
    | _, _ => s)

/-- STATION_SECONDS_TICK (R65): the count stays at 0 while UNCONFIGURED. -/
def execStationSecondsTick (s : State) : Host.Outcome State Fault Refusal :=
  .next (powered s fun s =>
    if s.station = .unconfigured then s
    else { s with seconds := s.seconds + 1, secondFrom := some s.now })

/-- LAMP_BLINK_PHASE (R6): a blinking lamp changes level. -/
def execLampBlinkPhase (line : LineNo) (s : State) : Host.Outcome State Fault Refusal :=
  .next (powered s fun s =>
    let l := s.line line
    if (blinkTime l.lamp).isSome then
      s.setLine line { l with lampOn := !l.lampOn, lampFrom := s.now }
    else s)

end Sys2Proof.Machine
end

