-- ==== Sys2Proof/Machine/Responses.lean ====
section
/-! DEFINITION. The data of the responses of the reading commands and of ORDER and CANCEL, field by
field in the order of the owning rule, encoded as R195 gives (log 11 to 14). -/

namespace Sys2Proof.Machine

/-- Whole seconds left to an expiry, rounded up (R30). -/
def secondsLeft (now expiry : Nat) : Nat := ceilDiv (expiry - now) sec

/-- The pending entry field of READ-LINE (R30). -/
def entryData (now : Nat) (e : StartEntry) : List Byte :=
  enc1 e.kind.code ++ encOpt (fun t => enc1 (secondsLeft now t)) e.expiry

/-- The pour in progress field of READ-LINE (R30). -/
def pourData (now : Nat) (p : PourCtx) : List Byte :=
  enc1 p.mode.code ++ encOpt bytes16 p.tag ++ encOpt enc2 p.pulseTarget ++ enc2 p.total ++
  enc2 p.foam ++ enc2 (tenMs now p.openedAt) ++ encOpt (fun r => enc1 r.code) p.endReason

/-- The last pour field of READ-LINE (R30). -/
def lastPourData (r : LastPour) : List Byte := enc1 r.endReason.code ++ enc2 r.beer ++ enc4 r.vr

/-- The response data of READ-LINE (R30). -/
def lineData (s : State) (i : LineNo) : List Byte :=
  let l := s.line i
  let c := s.lineCfg i
  enc1 l.state.code ++ enc1 l.lock.code ++
  encOpt (fun c : LineCfg => enc1 c.mode.code ++ enc1 c.source.val)
    (if s.configured i then some c else none) ++
  enc2 l.creep ++ enc1 (rememberedCode l.remembered) ++
  encOpt (entryData s.now) (s.starts.find? fun e => e.line == i) ++
  encOpt (pourData s.now) l.pour ++ encOpt lastPourData l.lastPour

/-- The response data of READ-SOURCE (R97). -/
def sourceData (s : State) (x : SourceNo) : List Byte :=
  let r := s.source x
  [r.gen] ++ enc4 r.full ++ enc4 r.own ++ enc4 r.carry ++ enc4 (sat max32 (s.peerDraw x)) ++
  enc1 (s.countedPeers x) ++ enc4 (sat max32 (s.drawn x)) ++ encOpt enc4 (s.remaining x) ++
  encBool r.empty ++ encBool r.low ++ enc4 s.cfg.lowThreshold[x] ++ encLines (s.linesOn x)

/-- The record count of the Peer Table (R132). -/
def State.peerCount (s : State) : Nat := s.peerList.length

/-- The next peer above a station number (R132). -/
def State.nextPeer (s : State) (n : Nat) : Option Nat :=
  (s.numberedPeers.find? fun e => n < e.1).map Prod.fst

/-- The two fields that describe the table as a whole (R132). -/
def tableData (s : State) (n : Nat) : List Byte := enc1 s.peerCount ++ encOpt enc1 (s.nextPeer n)

/-- The counted mark of an entry: the first of its list for a source 0..15, of the view's generation
(R132). -/
def countedMark (s : State) (before : List LinkEntry) (e : LinkEntry) : Bool :=
  if h : e.source.toNat < 16 then
    !(before.any fun b => b.source == e.source) && e.gen == (s.source ⟨e.source.toNat, h⟩).gen
  else false

/-- The entries of a record with their counted marks (R132). -/
def markedEntries (s : State) : List LinkEntry → List LinkEntry → List Byte
  | _, [] => []
  | before, e :: rest =>
    [e.source, e.gen] ++ encBool e.empty ++ bytes32 e.full ++ bytes32 e.cum ++
    encBool (countedMark s before e) ++ markedEntries s (before ++ [e]) rest

/-- Time since last STATUS as READ-PEER shows it (R132): with FRESH 2999 or less, also in the moment before
an expiry that has come due is taken. -/
def shownTime (now : Nat) (p : PeerRec) : Nat :=
  if p.fresh then sat 2999 (sinceStatus now p.lastAt) else sinceStatus now p.lastAt

/-- The fields of a peer record, in the order of R123 (R132). -/
def peerData (s : State) (n : Nat) (p : PeerRec) : List Byte :=
  enc1 n ++ enc1 (if p.fresh then 0 else 1) ++ enc2 (shownTime s.now p) ++
  [p.body.running.byte, p.body.demand, p.body.clean.byte, p.body.age] ++
  enc1 p.body.entries.length ++ markedEntries s [] p.body.entries

/-- The response data of READ-LINK (R120). -/
def linkData (s : State) : List Byte :=
  let k := s.link
  enc2 k.charErr ++ enc2 k.formatErr ++ enc2 k.crcErr ++ enc2 k.collisions ++ enc2 k.drops ++
  encBool k.mute ++ enc1 k.changes.length ++ encBool k.statusReq ++
  enc1 (match k.current with
    | none => 0
    | some c => if c.kind = .status then 1 else 2) ++
  encOpt (fun c : Current => enc1 c.k) k.current

/-- The three counts of TAKE-RECORD (R77). -/
def journalCounts (s : State) : List Byte :=
  enc1 s.journal.records.length ++ enc1 s.journal.reserved ++ bytes32 s.seconds

/-- The fields of READ-STATUS that R194 lists. -/
def stationData (s : State) : List Byte :=
  enc1 s.station.code ++ [s.attn.byte] ++ enc1 s.cfg.station ++ enc1 s.cfg.lineCount ++
  encBool s.link.mute ++ bytes32 s.seconds ++ enc1 s.journal.records.length ++
  enc1 s.journal.reserved ++ allLines.flatMap (fun i => enc1 (s.line i).state.code) ++
  enc1 s.pours ++ encList (fun e : StartEntry => enc1 e.line.val ++ enc1 e.kind.code) s.starts

/-- The frame time, 0..2559 ms (R134); 0 while the frame timer is stopped. -/
def frameTime (s : State) : Nat :=
  match s.cool.frameFrom with
  | some t => sat 2559 (elapsed s.now t msec)
  | none => 0

/-- The fields of READ-STATUS from the Cooling Controller (R153). -/
def coolData (s : State) : List Byte :=
  let k := s.cool
  encOpt encInt2 k.temp ++ enc2 k.lastCode.toNat ++ encBool k.fault ++ enc1 k.faultSamples ++
  enc1 k.demand ++ enc2 k.freshDemand ++ enc1 k.grant ++ enc1 k.latched ++ enc2 (frameTime s) ++
  encBool k.starved ++ encBool k.warmHold ++ encBool k.coolOff

/-- The fields of READ-STATUS from the recipe side (R172). The field per selected line is a presence byte
and a list, a count byte and the pairs in ascending line order without line numbers (DESIGN CHOICE,
log 11). -/
def recipeData (s : State) : List Byte :=
  let p := s.clean.progress
  encOpt (fun p : Progress => enc1 p.step) p ++
  encOpt (fun p : Progress => enc1 p.phase.code) p ++
  encOpt (fun p : Progress => enc2 (elapsed s.now p.stepFrom sec)) p ++
  encOpt (fun p : Progress => encBool (testValue p s)) p ++
  [s.clean.flags.byte] ++
  encOpt (fun p : Progress => enc2 (elapsed s.now p.runFrom sec)) p ++
  encOpt (fun _ : Progress => encList
    (fun i : LineNo => enc2 s.clean.stepCounts[i] ++ enc2 s.clean.beerOut[i]) s.selected) p

/-- The fields of READ-STATUS from the run side (R187). Lines still pouring has a presence byte and is
absent outside PREPARING (DESIGN CHOICE, log 11). -/
def runData (s : State) : List Byte :=
  let c := s.clean
  enc1 c.runState.code ++ bytes16 c.runNumber ++
  encOpt (fun j : Job => enc1 j.entry ++ [j.lines] ++ bytes32 j.start) c.job ++
  enc1 c.slots ++ enc1 c.age ++
  encOpt enc1 (if c.runState = .claiming then some c.ahead else none) ++
  encOpt (fun _ : Unit => encLines (s.selected.filter (stillPouring s)))
    (if c.runState = .preparing then some () else none)

/-- The response data of READ-STATUS (R194). -/
def statusData (s : State) : List Byte :=
  if s.station = .unconfigured then
    enc1 s.station.code ++ [s.attn.byte] ++ [s.clean.flags.byte]
  else stationData s ++ coolData s ++ recipeData s ++ runData s

/-- The order in hand of a line: the tag of its ORDER pour in POURING or AFTER-RUN (R53). -/
def inHand (s : State) (i : LineNo) : Option (BitVec 16) :=
  match (s.line i).pour with
  | some p => if p.mode = .order then p.tag else none
  | none => none

/-- The outcomes of CANCEL (R56), in the order of its table. -/
inductive CancelOutcome where
  | removed
  | pourEnded
  | alreadyEnded
deriving DecidableEq, Repr

/-- Position of an outcome in its list (R195). -/
def CancelOutcome.code : CancelOutcome → Nat
  | .removed => 0
  | .pourEnded => 1
  | .alreadyEnded => 2

/-- The picture of a line's queue (R58). The count byte of the list serves as the order count: one byte,
not two (DESIGN CHOICE, log 12). -/
def queuePicture (s : State) (i : LineNo) (outcome : Option CancelOutcome) : List Byte :=
  encOpt (fun o : CancelOutcome => enc1 o.code) outcome ++ encOpt bytes16 (inHand s i) ++
  encList (fun o : Order => bytes16 o.tag ++ enc4 o.volume) (s.line i).orders

end Sys2Proof.Machine
end

