-- ==== Sys2Proof/Machine/Port.lean ====
section
/-! DEFINITION. The terminal port (chapter 11.1, R193): how a command period runs, and the meanings of
the port's own rows. -/

namespace Sys2Proof.Machine

/-- A status and the data of an answer (R195). -/
abbrev Answer := Status × List Byte

/-- A command period begun while RDY is low (R189): the response being prepared, or the next one, gets
its OVERRUN marker. -/
def markOverrun (p : Port) : Port :=
  match p.preparing with
  | some r => { p with preparing := some { r with overrun := true } }
  | none => { p with overrunNext := true }

/-- A RESET response is held and waits (R193). -/
def ResetArm.isArmed : ResetArm → Bool
  | .armed _ => true
  | _ => false

/-- The port when a command period begins with RDY high and its command is executed (R188): the
response held is discarded and RDY drops. -/
def beginCommand (s : State) : State :=
  { s with port := { s.port with rdy := false, held := none, since := s.now } }

/-- The response of an executed command is being prepared (R188), with the marker it is owed (R189). -/
def prepare (a : Answer) (s : State) : State :=
  { s with port := { s.port with
      preparing := some { status := a.1, overrun := s.port.overrunNext, data := a.2 },
      overrunNext := false } }

/-- A command period (R188, R189, R193): with RDY low it is not executed and leaves the OVERRUN
marker; with a RESET waiting the reset acts and the command is not executed; otherwise the command is
executed and its answer prepared. -/
def command (body : State → State × Answer) (s : State) : State :=
  powered s fun s =>
    if !s.port.rdy then { s with port := markOverrun s.port }
    else if s.port.resetArm.isArmed then resetAct s
    else
      let r := body (beginCommand s)
      prepare r.2 r.1

/-- A refusal without data, which changes nothing. -/
def refuse (st : Status) (s : State) : State × Answer := (s, st, [])

/-- An OK answer with data. -/
def accept (data : List Byte) (s : State) : State × Answer := (s, .ok, data)

/-- The bytes that the port shifts out in a read period of n bytes (R188): the response frame and then
00h fill, or 00h bytes when it holds none. -/
def shiftOut (held : Option Response) (n : Nat) : List Byte :=
  let frame := match held with
    | some r => r.chars
    | none => []
  (frame ++ List.replicate n 0).take n

/-- A read period of at least one byte (R188): it consumes the response held, and the end of the read
period that consumes the RESET response makes the reset act (R193). -/
def readOut (n : Nat) (s : State) : State :=
  let out := shiftOut s.port.held n
  let s1 := if s.port.held.isSome && s.port.resetArm.isArmed then resetAct s
    else { s with port := { s.port with held := none } }
  { s1 with port := { s1.port with sdo := out } }

/-- A RESET response that becomes ready starts its 100 ms (R193). -/
def ResetArm.ready (a : ResetArm) (now : Nat) : ResetArm :=
  match a with
  | .preparing => .armed now
  | a => a

/-- READ_PERIOD (R188); a period without a full byte does nothing. -/
def execReadPeriod (bytes : Nat) (s : State) : Host.Outcome State Fault Refusal :=
  .next (powered s fun s => if bytes = 0 then s else readOut bytes s)

/-- RESPONSE_READY (R188): the port holds the response and raises RDY. -/
def execResponseReady (s : State) : Host.Outcome State Fault Refusal :=
  .next (powered s fun s => match s.port.preparing with
    | some r => { s with port := { s.port with
        held := some r, preparing := none, rdy := true,
        resetArm := s.port.resetArm.ready s.now } }
    | none => s)

/-- COMMAND_NOT_EXECUTED (R189): answered BAD-ARG with no data, or marked OVERRUN while RDY is low. -/
def execCommandNotExecuted (s : State) : Host.Outcome State Fault Refusal :=
  .next (command (refuse .badArg) s)

/-- RESET_RESPONSE_TIMEOUT (R193). -/
def execResetResponseTimeout (s : State) : Host.Outcome State Fault Refusal :=
  .next (powered s fun s => if s.port.resetArm.isArmed then resetAct s else s)

/-- RSTN_ASSERT (R121, R186, R193): every block takes its reset state at once. While RSTN is held low
every output is undriven (Pins.lean) and nothing else is taken (log 7). -/
def execRstnAssert (s : State) : Host.Outcome State Fault Refusal :=
  .next { resetAct s with rstnLow := true }

/-- RSTN_RELEASE (R193): every block stands in its reset state, and RDY is to rise within 2 ms. -/
def execRstnRelease (s : State) : Host.Outcome State Fault Refusal := .next (resetAct s)

/-- PORT_READY_AFTER_RESET (R193): RDY rises, with no response being prepared. -/
def execPortReadyAfterReset (s : State) : Host.Outcome State Fault Refusal :=
  .next (powered s fun s =>
    if s.port.preparing.isNone then { s with port := { s.port with rdy := true } } else s)

end Sys2Proof.Machine
end

