-- ==== Sys2Proof/Machine/Station.lean ====
section
/-! DEFINITION. The terminal commands of the station as a whole and the reading commands (chapter 11,
R30, R97, R120, R132): CONFIGURE, START, STOP, RESET and READ_*. -/

namespace Sys2Proof.Machine

/-- The acceptance of an image (R192), in its steps. -/
def acceptImage (img : List Byte) (s : State) : State :=
  let s1 := { s with
    config := some (loadCfg img), station := .stopped, seconds := 0, secondFrom := some s.now }
  let s2 := requestStatus (modLink (fun k => { k with
    rx := .discard, idleFrom := some s.now, announceFrom := some s.now }) s1)
  glycolFrame { s2 with cool := { s2.cool with sampleFrom := some s.now } }

/-- CONFIGURE (R191, R192). -/
def configureBody (img : List Byte) (s : State) : State × Answer :=
  if s.station ≠ .unconfigured then refuse .badState s
  else match imageFault img with
    | some k => (s, .badConfig, enc2 k)
    | none => accept [] (acceptImage img s)

/-- START on one line (R3): its last-pour record is discarded, and a configured OFF line goes to
LOCKED or READY. -/
def startLine (i : LineNo) (s : State) : State :=
  let l := { s.line i with lastPour := none }
  let s1 := s.setLine i l
  if s.configured i && l.state == .off then
    setState i (if l.lock = .clear then .ready else .locked) s1
  else s1

/-- START (R3, R191). -/
def startBody (s : State) : State × Answer :=
  if s.station ≠ .stopped then refuse .badState s
  else accept [] (requestStatus (overLines startLine allLines { s with station := .running }))

/-- A line at STOP once its pour has ended and the run has released it (R29). -/
def stopLine (i : LineNo) (s : State) : State :=
  match (s.line i).state with
  | .ready | .locked | .reserved | .cleaning => setState i .off s
  | _ => s

/-- The station leaves RUNNING (R29, R186): the list is emptied with refusal, pours end STOPPED, the
run is aborted, the other lines go OFF. -/
def leaveRunning (s : State) : State :=
  let s1 := { s with station := .stopped }
  let s2 := overLines (fun i => refuseEntry i .off) (s.starts.map StartEntry.line) s1
  let s3 := overLines (fun i => endIfPouring i .stopped) allLines s2
  overLines stopLine allLines (abortRun s3)

/-- STOP (R29, R191). -/
def stopBody (s : State) : State × Answer :=
  if s.station ≠ .running then refuse .badState s
  else accept [] (requestStatus (leaveRunning s))

/-- RESET (R193): answered OK in every station state; the reset acts later. -/
def resetBody (s : State) : State × Answer :=
  accept [] { s with port := { s.port with resetArm := .preparing } }

/-- READ-STATUS (R194), in every station state. -/
def readStatusBody (s : State) : State × Answer := accept (statusData s) s

/-- A line number of a payload (R195). -/
def lineOfByte (b : Byte) : Option LineNo :=
  if h : b.toNat < 8 then some ⟨b.toNat, h⟩ else none

/-- A source number of a payload (R195). -/
def sourceOfByte (b : Byte) : Option SourceNo :=
  if h : b.toNat < 16 then some ⟨b.toNat, h⟩ else none

/-- READ-LINE (R30). -/
def readLineBody (line : Byte) (s : State) : State × Answer :=
  if s.station = .unconfigured then refuse .badState s
  else match lineOfByte line with
    | none => refuse .badArg s
    | some i => accept (lineData s i) s

/-- READ-SOURCE (R97). -/
def readSourceBody (source : Byte) (s : State) : State × Answer :=
  if s.station = .unconfigured then refuse .badState s
  else match sourceOfByte source with
    | none => refuse .badArg s
    | some x => accept (sourceData s x) s

/-- READ-PEER (R132). -/
def readPeerBody (station : Byte) (s : State) : State × Answer :=
  if s.station = .unconfigured then refuse .badState s
  else match peerIndex station with
    | none => refuse .badArg s
    | some n =>
      match s.peer n with
      | none => (s, .notFound, tableData s station.toNat)
      | some p => accept (tableData s station.toNat ++ peerData s station.toNat p) s

/-- READ-LINK (R120): the five counters are cleared after their values are taken. -/
def readLinkBody (s : State) : State × Answer :=
  if s.station = .unconfigured then refuse .badState s
  else accept (linkData s) (modLink (fun k => { k with
    charErr := 0, formatErr := 0, crcErr := 0, collisions := 0, drops := 0 }) s)

/-- READ-ATTENTION (R190): the set is returned and emptied. -/
def readAttentionBody (s : State) : State × Answer :=
  accept [s.attn.byte] { s with attn := .none }

/-- CONFIGURE (R192). -/
def execConfigure (image : List Byte) (s : State) : Host.Outcome State Fault Refusal :=
  .next (command (configureBody image) s)

/-- START (R191). -/
def execStart (s : State) : Host.Outcome State Fault Refusal := .next (command startBody s)

/-- STOP (R191). -/
def execStop (s : State) : Host.Outcome State Fault Refusal := .next (command stopBody s)

/-- RESET (R193). -/
def execReset (s : State) : Host.Outcome State Fault Refusal := .next (command resetBody s)

/-- READ_STATUS (R194). -/
def execReadStatus (s : State) : Host.Outcome State Fault Refusal :=
  .next (command readStatusBody s)

/-- READ_LINE (R30). -/
def execReadLine (line : Byte) (s : State) : Host.Outcome State Fault Refusal :=
  .next (command (readLineBody line) s)

/-- READ_SOURCE (R97). -/
def execReadSource (source : Byte) (s : State) : Host.Outcome State Fault Refusal :=
  .next (command (readSourceBody source) s)

/-- READ_PEER (R132). -/
def execReadPeer (station : Byte) (s : State) : Host.Outcome State Fault Refusal :=
  .next (command (readPeerBody station) s)

/-- READ_LINK (R120). -/
def execReadLink (s : State) : Host.Outcome State Fault Refusal := .next (command readLinkBody s)

/-- READ_ATTENTION (R190). -/
def execReadAttention (s : State) : Host.Outcome State Fault Refusal :=
  .next (command readAttentionBody s)

end Sys2Proof.Machine
end

