-- ==== Sys2Proof/Machine/Jobs.lean ====
section
/-! DEFINITION. The terminal commands of the four jobs: orders (chapter 3), POUR-STOP and UNLOCK
(chapter 1), CALIBRATE (chapter 2), TAKE-RECORD (chapter 4), SOURCE-CHANGE (chapter 5), CLEAR-MUTE
(chapter 6), CLEAN-START and CLEAN-ABORT (chapter 10). -/

namespace Sys2Proof.Machine

/-- TAKE-RECORD (R77, R78): the oldest record leaves and the list is served. The counts are those after
the command has acted. -/
def takeRecordBody (s : State) : State × Answer :=
  if s.station = .unconfigured then refuse .badState s
  else match s.journal.records with
    | [] => (s, .empty, journalCounts s)
    | r :: rest =>
      let s1 := serve { s with journal := { s.journal with records := rest } }
      (s1, .ok, journalCounts s1 ++ r.chars)

/-- A tag stands in a line's queue (R54, R56). -/
def queued (s : State) (i : LineNo) (tag : BitVec 16) : Bool :=
  (s.line i).orders.any fun o => o.tag == tag

/-- The line of an ORDER or CANCEL, after the tests on the line (R54, R56). -/
def orderedLine (line : Byte) (s : State) : Except Status LineNo :=
  if s.station = .unconfigured then .error .badState
  else match lineOfByte line with
    | none => .error .badArg
    | some i => if s.configured i && s.ordered i then .ok i else .error .badState

/-- ORDER (R54, R55, R58). -/
def orderBody (line : Byte) (tag volume : BitVec 16) (s : State) : State × Answer :=
  match orderedLine line s with
  | .error st => refuse st s
  | .ok i =>
    if tag = 0 || !inRange 100 20000 volume.toNat then refuse .badArg s
    else if queued s i tag || inHand s i == some tag then (s, .duplicate, queuePicture s i none)
    else if 4 ≤ (s.line i).orders.length then (s, .queueFull, queuePicture s i none)
    else
      let l := s.line i
      let s1 := s.setLine i { l with orders := l.orders ++ [⟨tag, volume.toNat⟩] }
      (s1, .ok, queuePicture s1 i none)

/-- CANCEL (R56, R57, R58). -/
def cancelBody (line : Byte) (tag : BitVec 16) (s : State) : State × Answer :=
  match orderedLine line s with
  | .error st => refuse st s
  | .ok i =>
    if tag = 0 then refuse .badArg s
    else if queued s i tag then
      let l := s.line i
      let s1 := s.setLine i { l with orders := l.orders.filter fun o => o.tag != tag }
      (s1, .ok, queuePicture s1 i (some .removed))
    else if inHand s i == some tag then
      if (s.line i).state = .pouring then
        let s1 := endPour i .cancelled s
        (s1, .ok, queuePicture s1 i (some .pourEnded))
      else (s, .ok, queuePicture s i (some .alreadyEnded))
    else (s, .notFound, queuePicture s i none)

/-- A configured line of a payload (R26, R28, R47). -/
def configuredLine (line : Byte) (s : State) : Option LineNo :=
  match lineOfByte line with
  | some i => if s.configured i then some i else none
  | none => none

/-- POUR-STOP (R28). -/
def pourStopBody (line : Byte) (s : State) : State × Answer :=
  if s.station ≠ .running then refuse .badState s
  else match configuredLine line s with
    | none => refuse .badArg s
    | some i =>
      match (s.line i).state with
      | .pouring => accept [] (endPour i .stopped s)
      | .waiting => accept [] (refuseEntry i .ready s)
      | .afterRun => accept [] (s.setLine i { s.line i with remembered := none })
      | _ => refuse .badState s

/-- UNLOCK (R26). -/
def unlockBody (line : Byte) (s : State) : State × Answer :=
  if s.station = .unconfigured then refuse .badState s
  else match configuredLine line s with
    | none => refuse .badArg s
    | some i =>
      if (s.line i).lock = .clear then refuse .badState s else accept [] (clearLock i s)

/-- The end reasons that a calibration accepts (R47). -/
def EndReason.steady : EndReason → Bool
  | .target => true
  | .release => true
  | _ => false

/-- Set the working gain of a line (R48, R49). -/
def setGain (i : LineNo) (g : Int) (s : State) : State :=
  { s with config := s.config.map fun c =>
      { c with lines := c.lines.set i { c.lines[i] with g := g } } }

/-- CALIBRATE (R47, R48, R49). -/
def calibrateBody (line : Byte) (va : BitVec 32) (s : State) : State × Answer :=
  if s.station = .unconfigured then refuse .badState s
  else match configuredLine line s with
    | none => refuse .badArg s
    | some i =>
      if !inRange 1 2000000 va.toNat then refuse .badArg s
      else match (s.line i).lastPour with
        | none => refuse .notFound s
        | some r =>
          let g := newGain r.v r.g va.toNat
          if !r.endReason.steady || r.beer < 200 || !inRangeInt (-16384) 16383 g then refuse .range s
          else accept (encInt2 g) (setGain i g s)

/-- SOURCE-CHANGE (R89): the CHANGE frame is queued in a CHANGE slot. -/
def sourceChangeBody (source : Byte) (full : BitVec 32) (s : State) : State × Answer :=
  if s.station = .unconfigured then refuse .badState s
  else match sourceOfByte source with
    | none => refuse .badArg s
    | some x =>
      if s.link.mute then refuse .muted s
      else if 4 ≤ s.link.changes.length then refuse .queueFull s
      else
        let gen := (s.source x).gen + 1
        let s1 := newGeneration x gen full.toNat false s
        accept [gen] (selectFrame (modLink (fun k => { k with
          changes := k.changes ++ [{ source := source, gen, full }] }) s1))

/-- CLEAR-MUTE (R119). -/
def clearMuteBody (s : State) : State × Answer :=
  if s.station = .unconfigured || !s.link.mute then refuse .badState s
  else accept [] (requestStatus (modLink (fun k => { k with mute := false }) s))

/-- The reserve request on a selected line (R27, R175 step 4). -/
def reserveLine (i : LineNo) (s : State) : State :=
  match (s.line i).state with
  | .ready => setState i .reserved s
  | .waiting => refuseEntry i .reserved s
  | .locked => setState i .reserved (s.setLine i { s.line i with lock := .clear })
  | .pouring | .afterRun => s.setLine i { s.line i with cleanMark := true }
  | _ => s

/-- A CLEAN-START that passes its tests (R175). -/
def acceptRun (entry : Nat) (lines : Byte) (s : State) : State :=
  let n := 1 + (linesOf lines).length
  let s1 := modClean (fun c => { c with
    runNumber := c.runNumber + 1, job := some { entry, lines, start := s.seconds }, slots := n })
    { s with journal := { s.journal with reserved := s.journal.reserved + n } }
  let s2 := overLines reserveLine (linesOf lines) s1
  checkPrepared (modClean (fun c => { c with runState := .preparing }) s2)

/-- CLEAN-START (R174, R175). -/
def cleanStartBody (entry lines : Byte) (s : State) : State × Answer :=
  if s.station ≠ .running then refuse .badState s
  else if s.clean.runState ≠ .idle then refuse .badState s
  else if s.link.mute then refuse .muted s
  else if !inRange 1 2 entry.toNat || lines = 0 || !(linesOf lines).all s.configured then
    refuse .badArg s
  else if s.freeSpace < 1 + (linesOf lines).length then refuse .journalFull s
  else
    let s1 := acceptRun entry.toNat lines s
    accept (bytes16 s1.clean.runNumber ++ enc1 s1.clean.runState.code) s1

/-- CLEAN-ABORT (R185): the answer carries the run state the run was ended from. -/
def cleanAbortBody (s : State) : State × Answer :=
  if s.station = .unconfigured || s.clean.runState == .idle then refuse .badState s
  else accept (bytes16 s.clean.runNumber ++ enc1 s.clean.runState.code) (abortRun s)

/-- TAKE_RECORD (R77). -/
def execTakeRecord (s : State) : Host.Outcome State Fault Refusal :=
  .next (command takeRecordBody s)

/-- ORDER (R54). -/
def execOrder (line : Byte) (tag volume : BitVec 16) (s : State) :
    Host.Outcome State Fault Refusal :=
  .next (command (orderBody line tag volume) s)

/-- CANCEL (R56). -/
def execCancel (line : Byte) (tag : BitVec 16) (s : State) : Host.Outcome State Fault Refusal :=
  .next (command (cancelBody line tag) s)

/-- POUR_STOP (R28). -/
def execPourStop (line : Byte) (s : State) : Host.Outcome State Fault Refusal :=
  .next (command (pourStopBody line) s)

/-- UNLOCK (R26). -/
def execUnlock (line : Byte) (s : State) : Host.Outcome State Fault Refusal :=
  .next (command (unlockBody line) s)

/-- CALIBRATE (R47). -/
def execCalibrate (line : Byte) (va : BitVec 32) (s : State) : Host.Outcome State Fault Refusal :=
  .next (command (calibrateBody line va) s)

/-- SOURCE_CHANGE (R89). -/
def execSourceChange (source : Byte) (full : BitVec 32) (s : State) :
    Host.Outcome State Fault Refusal :=
  .next (command (sourceChangeBody source full) s)

/-- CLEAN_START (R175). -/
def execCleanStart (entry lines : Byte) (s : State) : Host.Outcome State Fault Refusal :=
  .next (command (cleanStartBody entry lines) s)

/-- CLEAN_ABORT (R185). -/
def execCleanAbort (s : State) : Host.Outcome State Fault Refusal :=
  .next (command cleanAbortBody s)

/-- CLEAR_MUTE (R119). -/
def execClearMute (s : State) : Host.Outcome State Fault Refusal := .next (command clearMuteBody s)

end Sys2Proof.Machine
end

