-- ==== Sys2Proof/Machine/Dispatch.lean ====
section
/-! DEFINITION. One arm for each command and event: each calls its own meaning. -/

namespace Sys2Proof.Machine

def exec (i : Instr) (s : State) : Host.Outcome State Fault Refusal :=
  match i with
  | .configure image => Sys2Proof.Machine.execConfigure image s
  | .start => Sys2Proof.Machine.execStart s
  | .stop => Sys2Proof.Machine.execStop s
  | .reset => Sys2Proof.Machine.execReset s
  | .readStatus => Sys2Proof.Machine.execReadStatus s
  | .readLine line => Sys2Proof.Machine.execReadLine line s
  | .readSource source => Sys2Proof.Machine.execReadSource source s
  | .readPeer station => Sys2Proof.Machine.execReadPeer station s
  | .readLink => Sys2Proof.Machine.execReadLink s
  | .readAttention => Sys2Proof.Machine.execReadAttention s
  | .takeRecord => Sys2Proof.Machine.execTakeRecord s
  | .order line tag volume => Sys2Proof.Machine.execOrder line tag volume s
  | .cancel line tag => Sys2Proof.Machine.execCancel line tag s
  | .pourStop line => Sys2Proof.Machine.execPourStop line s
  | .unlock line => Sys2Proof.Machine.execUnlock line s
  | .calibrate line va => Sys2Proof.Machine.execCalibrate line va s
  | .sourceChange source full => Sys2Proof.Machine.execSourceChange source full s
  | .cleanStart entry lines => Sys2Proof.Machine.execCleanStart entry lines s
  | .cleanAbort => Sys2Proof.Machine.execCleanAbort s
  | .clearMute => Sys2Proof.Machine.execClearMute s
  | .commandNotExecuted => Sys2Proof.Machine.execCommandNotExecuted s
  | .readPeriod bytes => Sys2Proof.Machine.execReadPeriod bytes s
  | .responseReady => Sys2Proof.Machine.execResponseReady s
  | .resetResponseTimeout => Sys2Proof.Machine.execResetResponseTimeout s
  | .rstnAssert => Sys2Proof.Machine.execRstnAssert s
  | .rstnRelease => Sys2Proof.Machine.execRstnRelease s
  | .portReadyAfterReset => Sys2Proof.Machine.execPortReadyAfterReset s
  | .handlePress line => Sys2Proof.Machine.execHandlePress line s
  | .handleRelease line => Sys2Proof.Machine.execHandleRelease line s
  | .keyPress line key => Sys2Proof.Machine.execKeyPress line key s
  | .keyEntryExpiry line => Sys2Proof.Machine.execKeyEntryExpiry line s
  | .refuseFlashEnd line => Sys2Proof.Machine.execRefuseFlashEnd line s
  | .valveHoldDrive line => Sys2Proof.Machine.execValveHoldDrive line s
  | .meterPulse line => Sys2Proof.Machine.execMeterPulse line s
  | .noFlowExpiry line => Sys2Proof.Machine.execNoFlowExpiry line s
  | .pourTimerExpiry line => Sys2Proof.Machine.execPourTimerExpiry line s
  | .pourCompletion line => Sys2Proof.Machine.execPourCompletion line s
  | .stationSecondsTick => Sys2Proof.Machine.execStationSecondsTick s
  | .validFrameArrival frame => Sys2Proof.Machine.execValidFrameArrival frame s
  | .frameDiscarded check => Sys2Proof.Machine.execFrameDiscarded check s
  | .idleGapExpiry => Sys2Proof.Machine.execIdleGapExpiry s
  | .announcementTimerExpiry => Sys2Proof.Machine.execAnnouncementTimerExpiry s
  | .accessWaitExpiry => Sys2Proof.Machine.execAccessWaitExpiry s
  | .collision => Sys2Proof.Machine.execCollision s
  | .transmitSuccess => Sys2Proof.Machine.execTransmitSuccess s
  | .peerExpiry station => Sys2Proof.Machine.execPeerExpiry station s
  | .sensorSample code => Sys2Proof.Machine.execSensorSample code s
  | .glycolFrameStart => Sys2Proof.Machine.execGlycolFrameStart s
  | .glycolOnTimeEnd => Sys2Proof.Machine.execGlycolOnTimeEnd s
  | .conditionPinChange pin level => Sys2Proof.Machine.execConditionPinChange pin level s
  | .flowTimeout => Sys2Proof.Machine.execFlowTimeout s
  | .dwellExpiry => Sys2Proof.Machine.execDwellExpiry s
  | .limitExpiry => Sys2Proof.Machine.execLimitExpiry s
  | .runLimitExpiry => Sys2Proof.Machine.execRunLimitExpiry s
  | .characterStart => Sys2Proof.Machine.execCharacterStart s
  | .characterTaken value err => Sys2Proof.Machine.execCharacterTaken value err s
  | .lampBlinkPhase line => Sys2Proof.Machine.execLampBlinkPhase line s

end Sys2Proof.Machine
end

