-- ==== Sys2Proof/Machine/Inputs.lean ====
section
/-! DEFINITION. The input stages and the bits of the cellar link, which the block's own clock works: the
debounce of the tower and cleaning inputs (R4, R158), the two-sample rule of MTRn (R31), and the bits of a
character as they are driven and received (R100, R101). The world's side is the free values of Config
(log 35). -/

namespace Sys2Proof.Machine

/-- The debounce of HDLn, KAn and KBn, 20 ms (R4). -/
def towerHold : Nat := 20 * msec

/-- The debounce of CHEM, CLEAR and EXT, 100 ms (R158). -/
def condHold : Nat := 100 * msec

/-- A debounced input sees its pin at a moment: a pin that shows the level taken ends any hold, another
level is held from the first moment it shows (R4, R158). -/
def holdFrom (taken pin : Bool) (changed : Option Nat) (now : Nat) : Option Nat :=
  if pin = taken then none else some (changed.getD now)

/-- The other level has been held for a duration (R4, R158). -/
def heldFor (changed : Option Nat) (hold now : Nat) : Bool :=
  match changed with
  | some t => t + hold ≤ now
  | none => false

/-- A debounced input sees its pin. -/
def Debounce.watch (d : Debounce) (pin : Bool) (now : Nat) : Debounce :=
  { d with changed := holdFrom d.level pin d.changed now }

/-- A portion key sees its pin. Its opening is taken here, because it has no effect and no row of its own
(R4). -/
def watchKey (d : Debounce) (pin : Bool) (now : Nat) : Debounce :=
  let e := d.watch pin now
  if e.level && heldFor e.changed towerHold now then .taken false else e

/-- MTRn is sampled at each tick of 50 µs (R31, log 26). A level seen at two successive samples is taken:
the low level here, the high level as a pulse (METER_PULSE). -/
def MeterInput.sample (m : MeterInput) (pin : Bool) : MeterInput :=
  if pin = m.high then { m with seen := 0 }
  else if m.high && 1 ≤ m.seen then .taken false
  else { m with seen := m.seen + 1 }

/-- The inputs of a line see their pins (R4, R31). -/
def Line.watch (i : LineNo) (now : Nat) (l : Line) : Line :=
  { l with
    handle := l.handle.watch (Config.handleClosed i now) now,
    keyA := watchKey l.keyA (Config.keyClosed i .a now) now,
    keyB := watchKey l.keyB (Config.keyClosed i .b now) now,
    meter := if now % meterTick = 0 then l.meter.sample (Config.meterHigh i now) else l.meter }

/-- CHEM, CLEAR and EXT see their pins (R158). -/
def PinHolds.watch (h : PinHolds) (f : CondFlags) (now : Nat) : PinHolds :=
  { chem := holdFrom f.chem (Config.condHigh .chem now) h.chem now,
    clear := holdFrom f.clear (Config.condHigh .clear now) h.clear now,
    ext := holdFrom f.ext (Config.condHigh .ext now) h.ext now }

/-- The hold of a pin (R158). -/
def PinHolds.of (h : PinHolds) : CondPin → Option Nat
  | .chem => h.chem
  | .clear => h.clear
  | .ext => h.ext

/-! ## The bits of a character -/

/-- The eight data bits of a character, least significant first (R100). -/
def dataBits (b : Byte) : List Bool := (List.range 8).map b.getLsbD

/-- Data bits and parity bit hold an odd number of ones (R100). -/
def oddOnes (bits : List Bool) : Bool := bits.foldl xor false

/-- A character as it is sent (R100): start bit at space, data bits, even parity bit, stop bit at mark.
True stands for mark, and a one is sent as mark (PRESUMED, log 37). -/
def charBits (b : Byte) : List Bool := false :: dataBits b ++ [oddOnes (dataBits b), true]

/-- The level that the driver puts on the pair at a moment (R100). -/
def Drive.level (d : Drive) (now : Nat) : Bool :=
  (d.chars.flatMap charBits).getD ((now - d.began) / bitTime) true

/-- The character being sent has not been read back in its time (R114). -/
def missingChar (s : State) : Bool :=
  match s.link.tx with
  | some t => charEnd t.began (t.sent + 1) ≤ s.now
  | none => false

/-- The level that own station drives; none while its driver is off (R100), which it is from the end of the
stop bit of a character that is missing (R114, log 22). -/
def ownLevel (s : State) : Option Bool :=
  match s.link.drive with
  | some d => if s.rstnLow || missingChar s || d.ends ≤ s.now then none else some (d.level s.now)
  | none => none

/-- The level of the pair at the present moment (R100): mark by the bias while nobody drives, the level
driven, or, where two drive opposite levels, a level that is not defined (R114). -/
def pairLevel (s : State) : Bool :=
  match ownLevel s, Config.pairDriven s.now with
  | none, none => true
  | some a, none => a
  | none, some b => b
  | some a, some b => if a = b then a else Config.pairContended s.now

/-- The value of a character from its sampled bits (R101). -/
def charValue (bits : List Bool) : Byte :=
  BitVec.ofNat 8 (((bits.drop 1).take 8).foldr (fun b n => 2 * n + b.toNat) 0)

/-- The character error of sampled bits (R101): wrong parity, or the stop bit at space. -/
def charError (bits : List Bool) : Bool := oddOnes ((bits.drop 1).take 9) || !bits.getD 10 false

/-- The receiver sees the level of the pair at a moment (R101): the mark level makes it ready, and in a
character each bit is sampled at its middle. -/
def Receiver.watch (r : Receiver) (level : Bool) (now : Nat) : Receiver :=
  match r with
  | .wait => if level then .mark else .wait
  | .mark => .mark
  | .busy t bits =>
    if bits.length < 11 && now == t + bits.length * bitTime + bitTime / 2 then
      .busy t (bits ++ [level])
    else .busy t bits

/-! ## The clock's work -/

/-- The inputs see their pins at the present moment; none while RSTN is held low, and no receiver while
it is off (R4, R31, R101, R121, R158, R193). -/
def watchInputs (s : State) : State :=
  if s.rstnLow then s
  else { s with
    lines := Vector.ofFn fun i => (s.line i).watch i s.now,
    clean := { s.clean with holds := s.clean.holds.watch s.clean.flags s.now },
    link := if s.link.rx = .off then s.link
      else { s.link with recv := s.link.recv.watch (pairLevel s) s.now } }

/-- The receiver after a character (R101): the stop bit at mark makes it ready for the next start, and after a
framing error it waits for the mark level. -/
def Receiver.afterChar : Receiver → Receiver
  | .busy _ bits => if bits.getD 10 false then .mark else .wait
  | r => r

/-- The receiver as it goes on when the clock takes one of its events (R101): a character start begins a
character, and the end of one leaves it ready or waiting. -/
def settleReceiver (i : Instr) (s : State) : State :=
  match i with
  | .characterStart => modLink (fun k => { k with recv := .busy s.now [] }) s
  | .characterTaken _ _ => modLink (fun k => { k with recv := k.recv.afterChar }) s
  | _ => s

/-- The character that the receiver takes at the middle of the stop bit (R101). -/
def charComplete (s : State) : Option Instr :=
  match s.link.recv with
  | .busy _ bits =>
    if bits.length = 11 then some (.characterTaken (charValue bits) (charError bits)) else none
  | _ => none

/-- The receiver is ready and the pair falls from mark to space (R101). -/
def fallingEdge (s : State) : Bool := s.link.recv == .mark && !pairLevel s

/-- A debounced input has held the other level long enough (R4). -/
def Debounce.due (d : Debounce) (now : Nat) : Bool := heldFor d.changed towerHold now

end Sys2Proof.Machine
end

