-- ==== Sys2Proof/Machine/Tick.lean ====
section
/-! DEFINITION. The block's own clock: which timed event is due at the present moment, and the passing
of one unit of time with the input stages (log 1, 2, 35). The step on an empty queue uses them. -/

namespace Sys2Proof.Machine

/-- A timer that runs from a moment has reached a duration. -/
def ran (since : Option Nat) (duration now : Nat) : Bool :=
  match since with
  | some t => t + duration ≤ now
  | none => false

/-- A timed event that is due under a condition. -/
def dueIf (b : Bool) (i : Instr) : Option Instr := if b then some i else none

/-- The events of the terminal port that are due (R188, R193). -/
def portDue (s : State) : List (Option Instr) :=
  let p := s.port
  let late := p.since + readyTime ≤ s.now
  [ dueIf (p.preparing.isSome && late) .responseReady,
    dueIf (p.preparing.isNone && !p.rdy && late) .portReadyAfterReset,
    dueIf (match p.resetArm with
      | .armed t => t + resetWaitTime ≤ s.now
      | _ => false) .resetResponseTimeout ]

/-- The events of the receiver that are due (R101); it is off while UNCONFIGURED. -/
def receiverDue (s : State) : List (Option Instr) :=
  if s.link.rx = .off then []
  else [charComplete s, dueIf (fallingEdge s) .characterStart]

/-- The events of a line's inputs that are due: a debounced change of HDLn, the closing of a key, and a
pulse taken on MTRn (R4, R31). -/
def inputDue (s : State) (i : LineNo) : List (Option Instr) :=
  let l := s.line i
  [ dueIf (!l.handle.level && l.handle.due s.now) (.handlePress i),
    dueIf (l.handle.level && l.handle.due s.now) (.handleRelease i),
    dueIf (!l.keyA.level && l.keyA.due s.now) (.keyPress i .a),
    dueIf (!l.keyB.level && l.keyB.due s.now) (.keyPress i .b),
    dueIf (!l.meter.high && 2 ≤ l.meter.seen) (.meterPulse i) ]

/-- The debounced changes of CHEM, CLEAR and EXT that are due (R158). -/
def pinDue (s : State) : List (Option Instr) :=
  [CondPin.chem, .clear, .ext].map fun p =>
    dueIf (heldFor (s.clean.holds.of p) condHold s.now)
      (.conditionPinChange p (!s.clean.flags.pin p))

/-- The events of the input stages that are due, in every station state. -/
def inputsDue (s : State) : List (Option Instr) :=
  receiverDue s ++ allLines.flatMap (inputDue s) ++ pinDue s

/-- The events of a Line Unit that are due (R6, R7, R18, R22). -/
def lineDue (s : State) (i : LineNo) : List (Option Instr) :=
  let l := s.line i
  let pouring := l.state == .pouring
  [ dueIf (l.state == .afterRun && l.pour.isSome && ran l.afterRunFrom afterRunTime s.now)
      (.pourCompletion i),
    dueIf (pouring && ran (l.pour.map PourCtx.noFlowFrom) ((s.lineCfg i).noFlow * (100 * msec)) s.now)
      (.noFlowExpiry i),
    dueIf (pouring && ran (l.pour.map PourCtx.openedAt) (s.cfg.maxPour * sec) s.now)
      (.pourTimerExpiry i),
    dueIf (match l.valve with
      | .full t => t + fullDriveTime ≤ s.now
      | _ => false) (.valveHoldDrive i),
    dueIf (ran l.flashFrom flashTime s.now) (.refuseFlashEnd i),
    dueIf (match blinkTime l.lamp with
      | some h => l.lampFrom + h ≤ s.now
      | none => false) (.lampBlinkPhase i) ]

/-- The key entries of the pending start list that have expired (R12). -/
def startsDue (s : State) : List (Option Instr) :=
  s.starts.map fun e => dueIf (ran e.expiry 0 s.now) (.keyEntryExpiry e.line)

/-- The timed events of the station clock and of the Cooling Controller that are due (R65, R135,
R145). -/
def coolDue (s : State) : List (Option Instr) :=
  let k := s.cool
  [ dueIf (ran s.secondFrom sec s.now) .stationSecondsTick,
    dueIf (ran k.sampleFrom sampleTime s.now) (.sensorSample (Config.tsnsCode s.now)),
    dueIf (k.gly && ran k.frameFrom (k.latched * (10 * msec)) s.now) .glycolOnTimeEnd,
    dueIf (ran k.frameFrom glycolTime s.now) .glycolFrameStart ]

/-- The current frame's wait has run out on the idle time of the pair (R113). -/
def waitOver (s : State) : Bool :=
  match s.link.current, s.link.tx, s.link.idleFrom with
  | some c, none, some f =>
    (attemptFrame c.kind s).isSome && f ≤ s.now && accessWait s.cfg.station c.k ≤ idleBits s.now f
  | _, _, _ => false

/-- The idle time of the pair has passed 22 bit-times (R104). -/
def gapOver (s : State) : Bool :=
  (match s.link.rx with
    | .discard => true
    | .assembly _ => true
    | _ => false) &&
  (match s.link.idleFrom with
    | some f => f + 22 * bitTime < s.now
    | none => false)

/-- The timed events of the cellar link and of the Peer Table that are due (R104, R111, R113, R127). -/
def linkDue (s : State) : List (Option Instr) :=
  [ dueIf (gapOver s) .idleGapExpiry,
    dueIf (ran s.link.announceFrom (s.cfg.announcePeriod * msec) s.now) .announcementTimerExpiry,
    dueIf (!s.link.mute && waitOver s) .accessWaitExpiry ] ++
  s.numberedPeers.map fun e =>
    dueIf (e.2.expired s.now) (.peerExpiry (BitVec.ofNat 8 e.1))

/-- The timed events of the recipe that are due (R159, R164, R166, R170). -/
def cleanDue (s : State) : List (Option Instr) :=
  match s.clean.runState, s.clean.progress with
  | .running, some p =>
    let st := s.stepAt p.step
    [ dueIf (s.clean.flags.flow && ran s.clean.flowFrom flowTime s.now) .flowTimeout,
      dueIf (p.phase == .dwell && ran (some p.stepFrom) (st.dwell * sec) s.now) .dwellExpiry,
      dueIf (p.phase == .testing && st.limit != 0 && ran (some p.stepFrom) (st.limit * sec) s.now)
        .limitExpiry,
      dueIf (ran (some p.runFrom) (s.cfg.runLimit * (60 * sec)) s.now) .runLimitExpiry ]
  | _, _ => []

/-- The event that the block takes next, if one is due: none while RSTN is held low, those of the inputs
and of the port while UNCONFIGURED. Of events due together the first of this list is taken (log 2), the
collision of a missing character before all (R114, log 22). -/
def due (s : State) : Option Instr :=
  if s.rstnLow then none
  else if s.station = .unconfigured then (inputsDue s ++ portDue s).findSome? id
  else
    (dueIf (missingChar s) .collision :: inputsDue s ++ portDue s ++ coolDue s ++ allLines.flatMap (lineDue s) ++ startsDue s ++ linkDue s ++
      cleanDue s).findSome? id

/-- One unit of time passes (log 1), and the inputs see their pins. -/
def tick (s : State) : State := watchInputs { s with now := s.now + 1 }

/-- An event that the block takes by its own clock, the receiver going on as R101 gives. -/
def takeDue (i : Instr) (s : State) : State := settleReceiver i s

end Sys2Proof.Machine
end

