-- ==== Sys2Proof/Machine/Step.lean ====
section
/-! DEFINITION. One step of the block: the command at the front of the queue, or the block's own clock
when the queue is empty. -/

namespace Sys2Proof.Machine

/-- The step on an empty queue (log 1, 2): the event that is due, or one unit of time. -/
def idleStep (s : State) : Host.Outcome State Fault Refusal :=
  match due s with
  | some i => exec i (takeDue i s)
  | none => .next (tick s)

/-- Take the command at the front of the queue and run it with the queue's rest; on an empty queue the
block's own clock acts. -/
def step (s : State) : Host.Outcome State Fault Refusal :=
  match s.pending with
  | i :: rest => exec i { s with pending := rest }
  | [] => idleStep s

/-- The state with the command that a table word spells at the front of its queue; no word spells one. -/
def State.withFetchWord (s : State) (nbits w : Nat) : State :=
  match Sys2Proof.decodeTableWord nbits w with
  | some i => { s with pending := i :: s.pending }
  | none => s

end Sys2Proof.Machine
end

