-- ==== Sys2Proof/Machine/Pins.lean ====
section
/-! DEFINITION. The output pins as functions of the state (00_scope.md, Pin Description). While RSTN is
held low every output is undriven and RDY and ATN are low (R6, R7, R100, R134, R171, R190, R193). -/

namespace Sys2Proof.Machine

/-- How VLVn is driven (R7). -/
inductive ValveDrive where
  | undriven
  | third
  | full
deriving DecidableEq, Repr

/-- The drive of VLVn (R7). -/
def vlvPin (s : State) (i : LineNo) : ValveDrive :=
  if s.rstnLow then .undriven
  else match (s.line i).valve with
    | .closed => .undriven
    | .full _ => .full
    | .hold => .third

/-- The level of LMPn, undriven while RSTN is low (R6). -/
def lmpPin (s : State) (i : LineNo) : Option Bool :=
  if s.rstnLow then none else some (s.line i).lampOn

/-- GLY driven on (R145); off, it is undriven. -/
def glyPin (s : State) : Bool := s.cool.gly && !s.rstnLow

/-- CLN-WATER driven on (R163). -/
def waterPin (s : State) : Bool := s.clean.out.water && !s.rstnLow

/-- CLN-CHEM driven on (R163). -/
def chemPin (s : State) : Bool := s.clean.out.chem && !s.rstnLow

/-- CLN-AIR driven on (R163). -/
def airPin (s : State) : Bool := s.clean.out.air && !s.rstnLow

/-- CLN-PUMP driven on (R163). -/
def pumpPin (s : State) : Bool := s.clean.out.pump && !s.rstnLow

/-- RDY (R188, R193). -/
def rdyPin (s : State) : Bool := s.port.rdy && !s.rstnLow

/-- SDO: the bytes that the latest read period shifted out (R188, log 9); undriven while RSTN is low
(R193). -/
def sdoPin (s : State) : Option (List Byte) := if s.rstnLow then none else some s.port.sdo

/-- ATN (R190). -/
def atnPin (s : State) : Bool := s.attn.any && !s.rstnLow

/-- The driver of the cellar link is enabled (R100). -/
def driverOn (s : State) : Bool := (ownLevel s).isSome

/-- LKA and LKB: the level that own station drives, true for mark; none while its driver is off (R100). -/
def pairPin (s : State) : Option Bool := ownLevel s

end Sys2Proof.Machine
end

