-- ==== Sys2Proof/Safety.lean ====
section
/-! DEFINITION. What claims about the machine are stated with: when the port takes a command, what an
answer is, which parts of the state an event touches, and the invariants of the blocks. -/

namespace Sys2Proof.Machine

/-! ## Commands, answers and frames -/

/-- The port takes a command (R188, R189, R193): RSTN is released, RDY is high and no RESET waits. -/
abbrev State.accepts (s : State) : Prop :=
  s.rstnLow = false ∧ s.port.rdy = true ∧ s.port.resetArm.isArmed = false

/-- The port as a command period leaves it when its command was executed (R188): RDY low, nothing held,
the answer being prepared with the OVERRUN marker it is owed. -/
def answer (st : Status) (data : List Byte) (s : State) : State :=
  { s with port := { s.port with
      rdy := false, held := none, since := s.now, overrunNext := false,
      preparing := some { status := st, overrun := s.port.overrunNext, data } } }

/-- A command period of the terminal (R188): a listed command, or one that is not executed. -/
def fromTerminal (c : Instr) : Bool :=
  c == .commandNotExecuted || (encodeCommand c).isSome

/-- Commands and events taken one after another. -/
def execAll : List Instr → State → Host.Outcome State Fault Refusal
  | [], s => .next s
  | c :: cs, s =>
    match exec c s with
    | .next t => execAll cs t
    | .fault r => .fault r
    | .refused r => .refused r

/-- The state right after a reset act (R193), which keeps the model's own clock and queue (log 21). -/
def afterReset (s : State) : State :=
  { State.reset with
    now := s.now, pending := s.pending, port := { Port.reset with since := s.now } }

/-- The parts of the state. -/
inductive Part where
  | now
  | rstn
  | station
  | config
  | port
  | attn
  | seconds
  | lines
  | starts
  | pours
  | journal
  | sources
  | link
  | peers
  | cool
  | clean
  | pending
deriving DecidableEq, Repr

/-- A part holds the same in two states. -/
def Part.same (p : Part) (s t : State) : Prop :=
  match p with
  | .now => t.now = s.now
  | .rstn => t.rstnLow = s.rstnLow
  | .station => t.station = s.station
  | .config => t.config = s.config
  | .port => t.port = s.port
  | .attn => t.attn = s.attn
  | .seconds => t.seconds = s.seconds ∧ t.secondFrom = s.secondFrom
  | .lines => t.lines = s.lines
  | .starts => t.starts = s.starts
  | .pours => t.pours = s.pours
  | .journal => t.journal = s.journal
  | .sources => t.sources = s.sources
  | .link => t.link = s.link
  | .peers => t.peers = s.peers
  | .cool => t.cool = s.cool
  | .clean => t.clean = s.clean
  | .pending => t.pending = s.pending

/-- Only the named parts may differ: the frame of an event. -/
def Only (touched : List Part) (s t : State) : Prop := ∀ p, p ∉ touched → p.same s t

/-- Every line but one holds the same. -/
def OtherLines (i : LineNo) (s t : State) : Prop := ∀ j, j ≠ i → t.line j = s.line j

/-- Every source record but one holds the same. -/
def OtherSources (x : SourceNo) (s t : State) : Prop := ∀ y, y ≠ x → t.source y = s.source y

/-- A Line Unit with its lamp left out of account. -/
def Line.sansLamp (l : Line) : Line := { l with lamp := .off, lampOn := false, lampFrom := 0 }

/-- A line holds the given fields, and its lamp shows the pattern of R6. -/
def LineBecomes (t : State) (i : LineNo) (l : Line) : Prop :=
  (t.line i).sansLamp = l.sansLamp ∧ (t.line i).lamp = lampPattern t i

/-- A STATUS is requested or current; nothing else of the link has changed (R110, R111). -/
def StatusRequested (s t : State) : Prop :=
  t.link = if s.link.mute then s.link
    else { s.link with
      statusReq := true,
      current := match s.link.current with
        | some c => some c
        | none => some ⟨if s.link.changes.isEmpty then .status else .change, 0⟩ }

/-- The fields of a line whose pour ends (R19). -/
def endedLine (now : Nat) (reason : EndReason) (l : Line) (p : PourCtx) : Line :=
  { l with
    state := .afterRun, valve := .closed, afterRunFrom := some now,
    pour := some { p with
      endReason := some reason, duration := some (min 65535 ((now - p.openedAt) / 5000)) } }

/-- A pour that ends changes its own line, and nothing else (R19). -/
def PourEnds (i : LineNo) (reason : EndReason) (p : PourCtx) (s t : State) : Prop :=
  LineBecomes t i (endedLine s.now reason (s.line i) p) ∧ OtherLines i s t ∧ Only [.lines] s t

/-- What STOP makes of a line that no run has selected (R29). -/
def stoppedLine (now : Nat) (l : Line) : Line :=
  match l.state, l.pour with
  | .pouring, some p => endedLine now .stopped l p
  | .waiting, _ => { l with state := .off, flashFrom := some now }
  | .ready, _ => { l with state := .off }
  | .locked, _ => { l with state := .off }
  | _, _ => l

/-- The entry of a line leaves the pending start list with refusal, the line taking a state (R12). -/
def EntryRefused (i : LineNo) (st : LineState) (s t : State) : Prop :=
  LineBecomes t i { s.line i with state := st, flashFrom := some s.now } ∧ OtherLines i s t ∧
  t.starts = s.starts.filter (fun e => e.line != i) ∧ Only [.lines, .starts] s t

/-- A pour admitted on a line (R10, R16), the line's other fields standing as in `l`. -/
def admittedLine (s : State) (i : LineNo) (l : Line) (mode : PourMode) (tag : Option (BitVec 16))
    (target : Option Nat) (orders : List Order) : Line :=
  let c := s.lineCfg i
  { l with
    state := .pouring, creep := 0, consecFoam := 0, intervalFrom := some s.now, valve := .full s.now,
    orders := orders,
    pour := some
      { mode, tag, target, pulseTarget := target.map (pulseTarget c.k c.g c.oq),
        k := c.k, g := c.g, oq := c.oq, start := s.seconds, openedAt := s.now, duration := none,
        noFlowFrom := s.now, total := 0, foam := 0, creep := l.creep, endReason := none,
        foamWithdrawn := false } }

/-- An admission reserves a slot, counts a pour and changes its own line (R10, R15, R66). -/
def Admitted (i : LineNo) (l : Line) (s t : State) : Prop :=
  LineBecomes t i l ∧ OtherLines i s t ∧ t.pours = s.pours + 1 ∧
  t.journal = { s.journal with reserved := s.journal.reserved + 1 } ∧
  Only [.lines, .pours, .journal] s t

/-- A request parked at the tail of the pending start list (R9, R11). -/
def Parked (i : LineNo) (l : Line) (e : StartEntry) (s t : State) : Prop :=
  LineBecomes t i { l with state := .waiting } ∧ OtherLines i s t ∧ t.starts = s.starts ++ [e] ∧
  Only [.lines, .starts] s t

/-- The refuse flash of a line, the line's other fields standing as in `l` (R6). -/
def Flashes (i : LineNo) (l : Line) (s t : State) : Prop :=
  LineBecomes t i { l with flashFrom := some s.now } ∧ OtherLines i s t ∧ Only [.lines] s t

/-- The line that the admission of a request or an entry makes (R10, R52, R59), by the mode of the line
and the kind of start; the head order leaves the queue of an ORDERED line. -/
def admittedBy (s : State) (i : LineNo) (kind : StartKind) : Line :=
  let l := s.line i
  let c := s.lineCfg i
  match c.mode, kind, l.orders with
  | .free, .handle, os => admittedLine s i l .free none none os
  | .free, .keyA, os => admittedLine s i l .presetA none (some c.presetA) os
  | .free, .keyB, os => admittedLine s i l .presetB none (some c.presetB) os
  | .ordered, _, o :: rest => admittedLine s i l .order (some o.tag) (some o.volume) rest
  | .ordered, _, [] => l

/-- A station hold other than a list that is not empty (R9, R14): warm hold, a journal without free space,
or the pace of a starved tower. -/
abbrev Held (s : State) : Prop :=
  s.cool.warmHold = true ∨ 64 ≤ s.journal.records.length + s.journal.reserved ∨
    (s.cool.starved = true ∧ s.cfg.pace ≤ s.pours)

/-- An entry that can't start whatever the holds (R8, R14): its source EMPTY, or for an ORDERED line an
empty order queue. -/
abbrev Unstartable (s : State) (i : LineNo) : Prop :=
  (s.source (s.lineCfg i).source).empty = true ∨
    ((s.lineCfg i).mode = .ordered ∧ (s.line i).orders = [])

/-- A KEY-A or KEY-B request presented at the completion of a pour (R23), judged by R8, R9 and R10. -/
def KeyPresented (i : LineNo) (k : Key) (s t : State) : Prop :=
  let kind := match k with
    | .a => StartKind.keyA
    | .b => StartKind.keyB
  if s.station ≠ .running ∨ (s.line i).state ∈ [.locked, .reserved, .cleaning] ∨ Unstartable s i then
    Flashes i (s.line i) s t
  else if Held s ∨ s.starts ≠ [] then
    if s.cfg.holdWait = 0 then Flashes i (s.line i) s t
    else Parked i (s.line i) ⟨i, kind, some (s.now + s.cfg.holdWait * 500000)⟩ s t
  else Admitted i (admittedBy s i kind) s t

/-- What a new generation of its source makes of a line (R25). -/
def liftedLine (l : Line) : Line :=
  { l with
    lock := if l.lock = .foamOut then .clear else l.lock,
    state := if l.lock = .foamOut ∧ l.state = .locked then .ready else l.state,
    pour := l.pour.map fun p =>
      if l.state = .afterRun ∧ p.endReason = some .foamOut then { p with foamWithdrawn := true }
      else p }

/-- A source takes a new generation (R89, R90): its figures restart, LOW is set only by the low test, the
foam locks of its lines are lifted, and no other source or line changes. -/
def TakesGeneration (x : SourceNo) (gen : BitVec 8) (full : Nat) (s t : State) : Prop :=
  t.source x = { gen, full, own := 0, carry := 0, empty := false, low := (t.source x).low } ∧
  ((t.source x).low = true ↔ full ≠ 0 ∧ full - t.peerDraw x ≤ s.cfg.lowThreshold[x]) ∧
  OtherSources x s t ∧
  t.attn = (if (t.source x).low then s.attn.set .sourceLow else s.attn) ∧
  ∀ i : LineNo, (t.line i).sansLamp =
    (if s.configured i && (s.lineCfg i).source == x then liftedLine (s.line i)
      else s.line i).sansLamp

/-- What the reserve request makes of a selected line (R27). -/
def reservedLine (now : Nat) (l : Line) : Line :=
  match l.state with
  | .ready => { l with state := .reserved }
  | .waiting => { l with state := .reserved, flashFrom := some now }
  | .locked => { l with state := .reserved, lock := .clear }
  | .pouring | .afterRun => { l with cleanMark := true }
  | .off | .reserved | .cleaning => l

/-- The WASTE records of a run end (R73, R75), ascending, from a sequence number on. -/
def wasteRecords (s : State) (j : Job) : List Record :=
  (((linesOf j.lines).filter fun i => 0 < s.clean.beerOut[i] + (s.line i).creep).zipIdx).map
    fun e =>
      let c := s.lineCfg e.1
      let b := s.clean.beerOut[e.1] + (s.line e.1).creep
      .waste { seq := s.journal.seq + BitVec.ofNat 16 e.2, start := j.start, line := e.1,
               source := c.source, gen := (s.source c.source).gen, pulses := b,
               volume := pourVolume c.k c.g 0 b, run := s.clean.runNumber }

/-- The CLEAN record of a run end (R74) with its sequence number. -/
def cleanRecord (s : State) (j : Job) (seq : BitVec 16) (result : RunResult) (last : Option Nat) :
    Record :=
  .clean { seq, start := j.start, duration := min (s.seconds - j.start).toNat 65535,
           run := s.clean.runNumber, entry := j.entry, lines := j.lines, result, lastStep := last }

/-- The volumes of WASTE records that bear a source (R73, R82). -/
def wasteVolumes (x : SourceNo) (rs : List Record) : List Nat :=
  rs.filterMap fun r => match r with
    | .waste w => if w.source = x then some w.volume else none
    | .pour _ | .clean _ => none

/-- The volumes of records written are added to own cumulative of their sources, and each addition makes
the low test (R82, R84). -/
def Drew (rs : List Record) (s t : State) : Prop :=
  ∀ x : SourceNo,
    let vs := wasteVolumes x rs
    t.source x = { s.source x with
      own := if vs = [] then (s.source x).own else min ((s.source x).own + vs.sum) 4294967295,
      low := (t.source x).low } ∧
    ((t.source x).low = true ↔ (s.source x).low = true ∨ (vs ≠ [] ∧ (s.source x).full ≠ 0 ∧
      (s.source x).full - t.drawn x ≤ s.cfg.lowThreshold[x]))

/-- The attention flags that writing records sets (R76, R84): JOURNAL-LEVEL when the records held reach the
threshold, SOURCE-LOW when a source becomes LOW. -/
def attnWritten (s t : State) : Attention :=
  let n := s.journal.records.length
  { s.attn with
    journalLevel := s.attn.journalLevel ||
      (decide (n < s.cfg.threshold) && decide (s.cfg.threshold ≤ t.journal.records.length)),
    sourceLow := s.attn.sourceLow ||
      allSources.any fun x => (t.source x).low && !(s.source x).low }

/-- The run is over (R182 step 7, R183 steps 3 and 4): IDLE, no slot held and no claim age; the run number
is kept. -/
def idleRun (c : Cleaning) : Cleaning := { c with runState := .idle, job := none, slots := 0, age := 0 }

/-- A run that was in RUNNING is over (R182 steps 1, 6 and 7): outputs off, no step, counts 0, FLOW and
VOLUME clear. -/
def endedRun (c : Cleaning) : Cleaning :=
  { idleRun c with
    progress := none, out := .none, flowFrom := none, stepCounts := Vector.replicate 8 0,
    beerOut := Vector.replicate 8 0, flags := { c.flags with flow := false, volume := false } }

/-- The journal of a run end (R67, R69, R70): its records at the tail, the numbers that they took, and
every slot of the run spent or returned. -/
def runJournal (s : State) (written : List Record) : Journal :=
  { records := s.journal.records ++ written, reserved := s.journal.reserved - s.clean.slots,
    seq := s.journal.seq + BitVec.ofNat 16 written.length }

/-- The records of a run that ends from RUNNING (R73 to R75): WASTE records, then the CLEAN record. -/
def runRecords (s : State) (j : Job) (result : RunResult) (last : Nat) : List Record :=
  wasteRecords s j ++
    [cleanRecord s j (s.journal.seq + BitVec.ofNat 16 (wasteRecords s j).length) result (some last)]

/-- Some lines aside, the list is served as in a state (R13): lines, list, count of pours and journal. -/
def ServedAs (aside : List LineNo) (v t : State) : Prop :=
  (∀ i, i ∉ aside → t.line i = v.line i) ∧ t.starts = v.starts ∧ t.pours = v.pours ∧
  t.journal = v.journal

/-- The state once the list is served, if it is. -/
def servedIf (b : Bool) (s : State) : State := if b then serve s else s

/-- The journal of a run end in place, and the list served when a slot of the run is returned unspent (R67,
R78). -/
def slotsReturned (s : State) (written : List Record) : State :=
  servedIf (decide (written.length < s.clean.slots)) { s with journal := runJournal s written }

/-- A run ends from RUNNING (R182, R184): outputs off and valves closed, WASTE and CLEAN records, their
volumes drawn, unspent slots returned, which serves the list, selected lines released, a STATUS requested. -/
def RunEnds (result : RunResult) (j : Job) (p : Progress) (s t : State) : Prop :=
  let written := runRecords s j result p.step
  let failed := result ≠ .completed
  t.clean = endedRun s.clean ∧ t.cool = { s.cool with coolOff := false } ∧ StatusRequested s t ∧
  Drew written s t ∧
  t.attn = { attnWritten s t with
    lineLocked := s.attn.lineLocked || decide (failed ∧ linesOf j.lines ≠ []),
    cleanEnd := true } ∧
  (∀ i ∈ linesOf j.lines, LineBecomes t i { s.line i with
    valve := .closed, creep := 0, lock := if failed then .cleanIncomplete else .clear,
    state := if s.station ≠ .running then .off else if failed then .locked else .ready }) ∧
  ServedAs (linesOf j.lines) (slotsReturned s written) t ∧
  Only [.lines, .starts, .pours, .journal, .sources, .attn, .link, .cool, .clean] s t

/-- A run ends ABORTED from PREPARING or CLAIMING (R183): marks withdrawn and RESERVED lines released, the
CLEAN record, unspent slots returned, which serves the list, from CLAIMING a STATUS requested. -/
def RunWithdrawn (j : Job) (s t : State) : Prop :=
  let written := [cleanRecord s j s.journal.seq .aborted none]
  t.clean = idleRun s.clean ∧
  (s.clean.runState = .claiming → StatusRequested s t) ∧
  (s.clean.runState = .preparing → t.link = s.link) ∧
  t.attn = { attnWritten s t with cleanEnd := true } ∧
  (∀ i ∈ linesOf j.lines, (t.line i).sansLamp =
    (if (s.line i).state = .reserved then
        ({ s.line i with
          state := if s.station = .running then .ready else .off, lock := .clear } : Line)
      else { s.line i with cleanMark := false }).sansLamp) ∧
  ServedAs (linesOf j.lines) (slotsReturned s written) t ∧
  Only [.lines, .starts, .pours, .journal, .attn, .link, .clean] s t

/-- Cool-off follows the COOL-OFF output of the step entered (R147). -/
def coolWith (on : Bool) (k : Cooling) : Cooling :=
  if !on then { k with coolOff := false }
  else if k.coolOff then k
  else { k with coolOff := true, demand := 0, grant := 0, starved := false, gly := false }

/-- The valve of a selected line follows FAUCETS (R163): it opens at full drive, an open one stays. -/
def valveWith (on : Bool) (now : Nat) (v : Valve) : Valve :=
  if !on then .closed
  else match v with
    | .closed => .full now
    | .full since => .full since
    | .hold => .hold

/-- The sequencer once a step is entered (R162): its clock and counts restart, VOLUME is set afresh, its
outputs are in force. -/
def enteredClean (s : State) (n runFrom : Nat) (c : Cleaning) : Cleaning :=
  { c with
    progress := some { step := n, phase := .dwell, stepFrom := s.now, runFrom },
    stepCounts := Vector.replicate 8 0, out := (s.stepAt n).outputs,
    flags := { c.flags with volume := decide ((s.stepAt n).pulses = 0) } }

/-- The list as a step entry leaves it: served when cool-off clears the starved flag (R13, R147). -/
def coolServed (s t : State) : State :=
  servedIf (s.cool.starved && !t.cool.starved) { s with cool := t.cool }

/-- A step is entered (R162, R163): the sequencer's figures, the outputs, the valves of the selected lines,
and cool-off (R147), which serves the list when it clears the starved flag. -/
def EntersStep (n runFrom : Nat) (s t : State) : Prop :=
  let o := (s.stepAt n).outputs
  t.clean = enteredClean s n runFrom s.clean ∧ t.cool = coolWith o.coolOff s.cool ∧
  (∀ i ∈ s.selected,
    t.line i = { s.line i with valve := valveWith o.faucets s.now (s.line i).valve }) ∧
  ServedAs s.selected (coolServed s t) t ∧
  Only [.lines, .starts, .pours, .journal, .cool, .clean] s t

/-- A step takes its next (R168): a step index is entered, END ends the run COMPLETED. -/
def NextTaken (p : Progress) (s t : State) : Prop :=
  match (s.stepAt p.step).next with
  | .step n => EntersStep n p.runFrom s t
  | .leave => ∃ j, s.clean.job = some j ∧ RunEnds .completed j p s t

/-- A step takes its fault next (R168): a step index is entered, FAIL ends the run FAILED. -/
def FaultTaken (p : Progress) (s t : State) : Prop :=
  match (s.stepAt p.step).faultNext with
  | .step n => EntersStep n p.runFrom s t
  | .leave => ∃ j, s.clean.job = some j ∧ RunEnds .failed j p s t

/-- The FRESH peers that are ACTIVE, or CLAIMING and ranked ahead of a claim of the given age (R178). -/
def rankedAhead (s : State) (age : Nat) : Nat :=
  (s.numberedPeers.filter fun e => e.2.fresh && (e.2.body.clean == .active ||
    (e.2.body.clean == .claiming && (age < e.2.body.age.toNat ||
      (e.2.body.age.toNat == age && e.1 < s.cfg.station))))).length

/-- A run begins (R171, R179): its lines become CLEANING, beer-out counts and FLOW are cleared, a STATUS
is requested, and the entry step is entered with the run clock from now. -/
def RunBegins (j : Job) (s t : State) : Prop :=
  let entry := if j.entry = 1 then s.cfg.entry1 else s.cfg.entry2
  let o := (s.stepAt entry).outputs
  t.clean = enteredClean s entry s.now { s.clean with
    runState := .running, beerOut := Vector.replicate 8 0, flowFrom := none,
    flags := { s.clean.flags with flow := false } } ∧
  StatusRequested s t ∧ t.cool = coolWith o.coolOff s.cool ∧
  (∀ i ∈ linesOf j.lines, LineBecomes t i { s.line i with
    state := .cleaning, valve := valveWith o.faucets s.now (s.line i).valve }) ∧
  ServedAs (linesOf j.lines) (coolServed s t) t ∧
  Only [.lines, .starts, .pours, .journal, .link, .cool, .clean] s t

/-- The claim evaluation (R178, R179): outside CLAIMING nothing; in CLAIMING the number ahead is stored,
and the run begins with a claim age of at least 2, fewer ahead than CleanSlots and no MUTE. -/
def ClaimEvaluated (s t : State) : Prop :=
  let n := rankedAhead s s.clean.age
  let v := { s with clean := { s.clean with ahead := n } }
  (s.clean.runState ≠ .claiming → t = s) ∧
  (s.clean.runState = .claiming →
    if 2 ≤ s.clean.age ∧ n < s.cfg.cleanSlots ∧ s.link.mute = false then
      ∃ j, s.clean.job = some j ∧ RunBegins j v t
    else t = v)

/-- What a STATUS announces of an entry list that is processed (R92): the first entry for a source. -/
def listed (es : List LinkEntry) (x : SourceNo) : Option LinkEntry :=
  es.find? fun e => e.source.toNat == x.val

/-- The new entry for a source bears a newer generation than the view (R88, R90). -/
def adopts (s : State) (new : List LinkEntry) (x : SourceNo) : Bool :=
  match listed new x with
  | some e =>
    let d := (e.gen.toNat + 256 - (s.source x).gen.toNat) % 256
    1 ≤ d && d ≤ 127
  | none => false

/-- The new entry for a source sets EMPTY, with the effects of R86: it is adopted with the flag set, or has
the view's generation and the flag while EMPTY is clear (R90, R94). -/
def empties (s : State) (new : List LinkEntry) (x : SourceNo) : Bool :=
  match listed new x with
  | some e => e.empty && (adopts s new x || (e.gen == (s.source x).gen && !(s.source x).empty))
  | none => false

/-- The frame that the characters of a frame spell whose checks are all passed (R102, R108, R109, R196):
its station, and its payload read field by field. -/
def FrameSpelled (kind station : Byte) (payload : List Byte) (f : LinkFrame) : Prop :=
  let at_ := fun n => payload.getD n 0
  f.station = station ∧
  match f.body with
  | .change b => kind = 0x43 ∧ b.source = at_ 0 ∧ b.gen = at_ 1 ∧
      b.full = be32 (at_ 2) (at_ 3) (at_ 4) (at_ 5)
  | .status b => kind = 0x53 ∧ (b.running = .stopped ↔ at_ 0 = 0) ∧ b.demand = at_ 1 ∧
      (b.clean = .none ↔ at_ 2 = 0) ∧ (b.clean = .claiming ↔ at_ 2 = 1) ∧ b.age = at_ 3 ∧
      b.entries.length = (at_ 4).toNat ∧
      ∀ (n : Nat) (e : LinkEntry), b.entries[n]? = some e →
        let o := fun k => at_ (5 + 11 * n + k)
        e.source = o 0 ∧ e.gen = o 1 ∧ e.empty = (o 2).getLsbD 0 ∧
        e.full = be32 (o 3) (o 4) (o 5) (o 6) ∧ e.cum = be32 (o 7) (o 8) (o 9) (o 10)

/-! ## Timers -/

/-- A timer that runs, from a moment, has reached a number of units of 2 µs. -/
def Reached (since : Option Nat) (units : Nat) (s : State) : Prop := ∃ t ∈ since, t + units ≤ s.now

/-- The timed event of a row has come due, by the duration that its rule gives: an expiry, a level that has
been held for its debounce, a pulse seen at two samples, a character sampled to its stop bit, or one being
sent that has not been read back in its time. -/
def DueNow (c : Instr) (s : State) : Prop :=
  let line := fun i : LineNo => s.line i
  let step := fun p : Progress => s.stepAt p.step
  let debounced := fun (d : Debounce) (level : Bool) =>
    d.level = !level ∧ Reached d.changed 10000 s
  s.rstnLow = false ∧
  match c with
  | .characterStart => s.link.rx ≠ .off ∧ s.link.recv = .mark ∧ pairLevel s = false
  | .characterTaken v err => s.link.rx ≠ .off ∧ ∃ since bits, s.link.recv = .busy since bits ∧
    bits.length = 11 ∧ (∀ n, n < 8 → v.getLsbD n = bits.getD (1 + n) false) ∧
    (err = true ↔ (((bits.drop 1).take 9).filter id).length % 2 = 1 ∨ bits.getD 10 false = false)
  | .handlePress i => debounced (line i).handle true
  | .handleRelease i => debounced (line i).handle false
  | .keyPress i .a => debounced (line i).keyA true
  | .keyPress i .b => debounced (line i).keyB true
  | .meterPulse i => (line i).meter.high = false ∧ 2 ≤ (line i).meter.seen
  | .conditionPinChange p level => level = !s.clean.flags.pin p ∧
    Reached (s.clean.holds.of p) 50000 s
  | .responseReady => s.port.preparing.isSome = true ∧ s.port.since + 1000 ≤ s.now
  | .portReadyAfterReset =>
    s.port.preparing = none ∧ s.port.rdy = false ∧ s.port.since + 1000 ≤ s.now
  | .resetResponseTimeout => ∃ t, s.port.resetArm = .armed t ∧ t + 50000 ≤ s.now
  | c => s.station ≠ .unconfigured ∧
    match c with
    | .stationSecondsTick => Reached s.secondFrom 500000 s
    | .sensorSample code => code = Config.tsnsCode s.now ∧ Reached s.cool.sampleFrom 125000 s
    | .glycolFrameStart => Reached s.cool.frameFrom 1280000 s
    | .glycolOnTimeEnd =>
      s.cool.gly = true ∧ Reached s.cool.frameFrom (s.cool.latched * 5000) s
    | .pourCompletion i => (line i).state = .afterRun ∧ (line i).pour.isSome = true ∧
      Reached (line i).afterRunFrom 200000 s
    | .noFlowExpiry i => (line i).state = .pouring ∧
      Reached ((line i).pour.map PourCtx.noFlowFrom) ((s.lineCfg i).noFlow * 50000) s
    | .pourTimerExpiry i => (line i).state = .pouring ∧
      Reached ((line i).pour.map PourCtx.openedAt) (s.cfg.maxPour * 500000) s
    | .valveHoldDrive i => ∃ t, (line i).valve = .full t ∧ t + 30000 ≤ s.now
    | .refuseFlashEnd i => Reached (line i).flashFrom 1000000 s
    | .lampBlinkPhase i => ((line i).lamp = .slow ∧ (line i).lampFrom + 250000 ≤ s.now) ∨
      ((line i).lamp = .fast ∧ (line i).lampFrom + 62500 ≤ s.now) ∨
      ((line i).lamp = .alternating ∧ (line i).lampFrom + 500000 ≤ s.now)
    | .keyEntryExpiry i => ∃ e ∈ s.starts, e.line = i ∧ Reached e.expiry 0 s
    | .collision => ∃ f ∈ s.link.tx, f.began + 44 * (f.sent + 1) ≤ s.now
    | .idleGapExpiry => (s.link.rx = .discard ∨ ∃ cs, s.link.rx = .assembly cs) ∧
      Reached s.link.idleFrom 89 s
    | .announcementTimerExpiry => Reached s.link.announceFrom (s.cfg.announcePeriod * 500) s
    | .accessWaitExpiry => s.link.mute = false ∧ s.link.tx = none ∧ ∃ c ∈ s.link.current,
      (c.kind = .status ∨ s.link.changes ≠ []) ∧
      Reached s.link.idleFrom (4 * accessWait s.cfg.station c.k) s
    | .peerExpiry station => ∃ (n : Fin 32) (p : PeerRec), station.toNat = n.val + 1 ∧
      s.peer n = some p ∧ p.fresh = true ∧ p.lastAt + 1500000 ≤ s.now
    | .flowTimeout => s.clean.runState = .running ∧ s.clean.progress.isSome = true ∧
      s.clean.flags.flow = true ∧ Reached s.clean.flowFrom 500000 s
    | .dwellExpiry => s.clean.runState = .running ∧ ∃ p ∈ s.clean.progress,
      p.phase = .dwell ∧ p.stepFrom + (step p).dwell * 500000 ≤ s.now
    | .limitExpiry => s.clean.runState = .running ∧ ∃ p ∈ s.clean.progress, p.phase = .testing ∧
      (step p).limit ≠ 0 ∧ p.stepFrom + (step p).limit * 500000 ≤ s.now
    | .runLimitExpiry => s.clean.runState = .running ∧ ∃ p ∈ s.clean.progress,
      p.runFrom + s.cfg.runLimit * 30000000 ≤ s.now
    | _ => False

/-- Since when a pin has held a level other than the one taken, once it is seen (R4, R158): no hold while it
shows the level taken; otherwise the hold goes on, or begins now. -/
def heldSince (taken pin : Bool) (held : Option Nat) (now : Nat) : Option Nat :=
  match decide (pin = taken), held with
  | true, _ => none
  | false, some since => some since
  | false, none => some now

/-- What a unit of time makes of a portion key (R4): its opening, held for 20 ms, is taken without an
event. -/
def KeySeen (d e : Debounce) (pin : Bool) (now : Nat) : Prop :=
  let held := heldSince d.level pin d.changed now
  if d.level = true ∧ ∃ since ∈ held, since + 10000 ≤ now then e = { level := false, changed := none }
  else e = { level := d.level, changed := held }

/-- What a unit of time makes of MTRn (R31): sampled every 50 µs, a sample of the level taken discards an
excursion, and a second low sample takes the low level. -/
def MeterSeen (m n : MeterInput) (pin : Bool) (now : Nat) : Prop :=
  if now % 25 ≠ 0 then n = m
  else if pin = m.high then n = { high := m.high, seen := 0 }
  else if m.high = true ∧ m.seen ≠ 0 then n = { high := false, seen := 0 }
  else n = { high := m.high, seen := m.seen + 1 }

/-- What a unit of time makes of the receiver (R101): the mark level makes it ready, and each bit of a
character is sampled at its middle. -/
def ReceiverSeen (r q : Receiver) (level : Bool) (now : Nat) : Prop :=
  match r with
  | .wait => q = if level then .mark else .wait
  | .mark => q = .mark
  | .busy since bits =>
    if bits.length < 11 ∧ now = since + 4 * bits.length + 2 then q = .busy since (bits ++ [level])
    else q = .busy since bits

/-- A unit of time passes (log 1), and each input sees its pin (R4, R31, R101, R158); while RSTN is held
low none does (R193). -/
def UnitPasses (s t : State) : Prop :=
  let now := s.now + 1
  t.now = now ∧ Only [.now, .lines, .link, .clean] s t ∧
  if s.rstnLow = true then t = { s with now := now }
  else
    (∀ i : LineNo, ∃ a b m,
      let l := s.line i
      let h := l.handle
      t.line i = { l with
        handle := ⟨h.level, heldSince h.level (Config.handleClosed i now) h.changed now⟩,
        keyA := a, keyB := b, meter := m } ∧
      KeySeen (s.line i).keyA a (Config.keyClosed i .a now) now ∧
      KeySeen (s.line i).keyB b (Config.keyClosed i .b now) now ∧
      MeterSeen (s.line i).meter m (Config.meterHigh i now) now) ∧
    t.clean = { s.clean with holds := t.clean.holds } ∧
    (∀ p : CondPin, t.clean.holds.of p =
      heldSince (s.clean.flags.pin p) (Config.condHigh p now) (s.clean.holds.of p) now) ∧
    t.link = { s.link with recv := t.link.recv } ∧
    (if s.link.rx = .off then t.link.recv = s.link.recv
      else ReceiverSeen s.link.recv t.link.recv (pairLevel { s with now := now }) now)

/-! ## Layouts of the terminal port -/

/-- A field that may be absent: a presence byte, and the field when present (R195). -/
def optBytes : Option (List Byte) → List Byte
  | some field => 1 :: field
  | none => [0]

/-- The picture of a line's queue (R58, R195): the outcome of a CANCEL by its place in the list REMOVED,
POUR-ENDED, ALREADY-ENDED, the tag of an ORDER pour in hand, then the orders with a tag of 2 bytes and a
volume of 4 bytes each, their one count byte being the order count (the model's choice, log 12). -/
def pictureBytes (l : Line) (outcome : Option Byte) : List Byte :=
  optBytes (outcome.map fun o => [o]) ++
  optBytes (match l.pour with
    | some p => if p.mode = .order then p.tag.map bytes16 else none
    | none => none) ++
  BitVec.ofNat 8 l.orders.length ::
    l.orders.flatMap fun o => bytes16 o.tag ++ bytes32 (BitVec.ofNat 32 o.volume)

/-- A journal record as R197 lays it out: the head, the fields of the kind, the optional fields. -/
def recordBytes (r : Record) : List Byte :=
  let n8 := fun n : Nat => [BitVec.ofNat 8 n]
  let n16 := fun n : Nat => bytes16 (BitVec.ofNat 16 n)
  let n32 := fun n : Nat => bytes32 (BitVec.ofNat 32 n)
  let bit := fun (set : Bool) (n : Nat) => if set then 2 ^ n else 0
  match r with
  | .pour p =>
    bytes16 p.seq ++ n8 1 ++ n8 (bit p.tag.isSome 0 + bit p.target.isSome 1 + bit p.creep.isSome 2) ++
    bytes32 p.start ++ n16 p.duration ++ n8 p.line.val ++ n8 p.source.val ++ [p.gen] ++
    n8 (match p.mode with
      | .free => 0 | .presetA => 1 | .presetB => 2 | .order => 3) ++
    n8 (match p.endReason with
      | .target => 0 | .release => 1 | .foamOut => 2 | .noFlow => 3 | .timeLimit => 4
      | .overrange => 5 | .cancelled => 6 | .stopped => 7) ++
    n16 p.total ++ n16 p.foam ++ n32 p.volume ++
    (match p.tag with
      | some tag => bytes16 tag | none => []) ++
    (match p.target with
      | some target => n16 target | none => []) ++
    (match p.creep with
      | some (pulses, volume) => n16 pulses ++ n32 volume | none => [])
  | .waste w =>
    bytes16 w.seq ++ n8 2 ++ n8 0 ++ bytes32 w.start ++ n8 w.line.val ++ n8 w.source.val ++ [w.gen] ++
    bytes16 w.run ++ n32 w.pulses ++ n32 w.volume
  | .clean c =>
    bytes16 c.seq ++ n8 3 ++ n8 (bit c.lastStep.isSome 3) ++ bytes32 c.start ++ n16 c.duration ++
    bytes16 c.run ++ n8 c.entry ++ [c.lines] ++
    n8 (match c.result with
      | .completed => 0 | .failed => 1 | .aborted => 2) ++
    (match c.lastStep with
      | some step => n8 step | none => [])

/-- The image's byte at an offset, as a number. -/
def at8 (img : List Byte) (o : Nat) : Nat := (img.getD o 0).toNat

/-- Two bytes of the image, high byte first. -/
def at16 (img : List Byte) (o : Nat) : Nat := 256 * at8 img o + at8 img (o + 1)

/-- Two bytes of the image in two's complement. -/
def at16s (img : List Byte) (o : Nat) : Int :=
  if at16 img o < 32768 then at16 img o else (at16 img o : Int) - 65536

/-- The item of an index fails its check (R198): the station part, a line below the line count, a step below
the step count. Items of any value and items not checked have no row here. -/
def ItemFails (img : List Byte) (index : Nat) : Prop :=
  let b := at8 img
  let w := at16 img
  let z := at16s img
  let target := fun o => b o < b 24 ∨ b o = 255
  (index, false) ∈ [
    (1, decide (1 ≤ b 0 ∧ b 0 ≤ 32)),
    (2, decide (b 1 ≤ 8)),
    (3, decide (250 ≤ w 2 ∧ w 2 ≤ 2000 ∧ w 2 % 50 = 0)),
    (4, decide (1 ≤ w 4 ∧ w 4 ≤ 2040)),
    (5, decide (-400 ≤ z 6 ∧ z 6 ≤ 800)),
    (6, decide (-350 ≤ z 8 ∧ z 8 ≤ 800)),
    (7, decide (5 ≤ b 10 ∧ b 10 ≤ 50)),
    (9, decide (b 12 ≤ 63)),
    (11, decide (1 ≤ w 14 ∧ w 14 ≤ 4095)),
    (12, decide (-1000 ≤ z 16 ∧ z 16 ≤ 1000)),
    (13, decide (1 ≤ b 18 ∧ b 18 ≤ 8)),
    (14, decide (5 ≤ b 19 ∧ b 19 ≤ 60)),
    (15, decide (b 20 ≤ 10)),
    (16, decide (1 ≤ b 21 ∧ b 21 ≤ 8)),
    (17, decide (10 ≤ b 22 ∧ b 22 ≤ 240)),
    (18, decide (b 23 = 16 ∨ b 23 = 32 ∨ b 23 = 48 ∨ b 23 = 56)),
    (19, decide (1 ≤ b 24 ∧ b 24 ≤ 24)),
    (20, decide (b 25 < b 24)),
    (21, decide (b 26 < b 24))] ∨
  (∃ n : LineNo, n.val < b 1 ∧
    let o := 27 + 17 * n.val
    let x := 32 + 16 * n.val
    let preset := fun p => b (o + 1) = 0 → 100 ≤ w p ∧ w p ≤ 20000
    (index, false) ∈ [
      (x + 1, decide (b o ≤ 15)),
      (x + 2, decide (b (o + 1) ≤ 1)),
      (x + 3, decide (50 ≤ w (o + 2) ∧ w (o + 2) ≤ 2000)),
      (x + 5, decide (-512 ≤ z (o + 6) ∧ z (o + 6) ≤ 511)),
      (x + 7, decide (4 ≤ b (o + 10))),
      (x + 8, decide (5 ≤ b (o + 11) ∧ b (o + 11) ≤ 50)),
      (x + 10, decide (preset (o + 13))),
      (x + 11, decide (preset (o + 15)))]) ∨
  ∃ j : Fin 24, j.val < b 24 ∧
    let o := 227 + 12 * j.val
    let x := 192 + 16 * j.val
    (index, false) ∈ [
      (x + 1, decide (b o ≤ 127)),
      (x + 2, decide (1 ≤ w (o + 1) ∧ w (o + 1) ≤ 4095)),
      (x + 3, decide (w (o + 3) = 0 ∨ (w (o + 1) ≤ w (o + 3) ∧ w (o + 3) ≤ 4095))),
      (x + 4, decide (b (o + 5) ≤ 2)),
      (x + 5, decide (b (o + 6) ≤ 31)),
      (x + 6, decide (b (o + 7) ≤ 31)),
      (x + 8, decide (target (o + 10))),
      (x + 9, decide (target (o + 11)))]

/-- The items of the station part stand at their offsets (R198). -/
def StationLoaded (img : List Byte) (c : Cfg) : Prop :=
  let b := at8 img
  let w := at16 img
  let z := at16s img
  c.station = b 0 ∧ c.lineCount = b 1 ∧ c.announcePeriod = w 2 ∧ c.cap = w 4 ∧ c.tset = z 6 ∧
  c.twarm = z 8 ∧ c.hyst = b 10 ∧ c.dgain = b 11 ∧ c.dpour = b 12 ∧ c.dfault = b 13 ∧ c.ms = w 14 ∧
  c.os = z 16 ∧ c.pace = b 18 ∧ c.maxPour = b 19 ∧ c.holdWait = b 20 ∧ c.cleanSlots = b 21 ∧
  c.runLimit = b 22 ∧ c.threshold = b 23 ∧ c.steps.length = b 24 ∧ c.entry1 = b 25 ∧ c.entry2 = b 26

/-- The items of a line stand at their offsets (R198). -/
def LineLoaded (img : List Byte) (i : LineNo) (l : LineCfg) : Prop :=
  let o := 27 + 17 * i.val
  let b := fun n => at8 img (o + n)
  let w := fun n => at16 img (o + n)
  let z := fun n => at16s img (o + n)
  l.source.val = b 0 ∧ l.mode = (if b 1 = 0 then .free else .ordered) ∧ l.k = w 2 ∧ l.g = z 4 ∧
  l.oq = z 6 ∧ l.fint = w 8 ∧ l.foamRun = b 10 ∧ l.noFlow = b 11 ∧ l.leakLimit = b 12 ∧
  l.presetA = w 13 ∧ l.presetB = w 15

/-- A set of condition flags stands in a byte of the image, FLOW in bit 0 to EXT in bit 4 (R198). -/
def FlagsLoaded (img : List Byte) (o : Nat) (f : CondFlags) : Prop :=
  let bit := (img.getD o 0).getLsbD
  f = { flow := bit 0, volume := bit 1, chem := bit 2, clear := bit 3, ext := bit 4 }

/-- The items of a step record stand at their offsets (R198). -/
def StepLoaded (img : List Byte) (j : Nat) (st : StepRec) : Prop :=
  let o := 227 + 12 * j
  let bit := (img.getD o 0).getLsbD
  let target := fun n => if at8 img n = 255 then StepTarget.leave else .step (at8 img n)
  st.outputs = { water := bit 0, chem := bit 1, air := bit 2, pump := bit 3, faucets := bit 4,
                 coolOff := bit 5, beerOut := bit 6 } ∧
  st.dwell = at16 img (o + 1) ∧ st.limit = at16 img (o + 3) ∧
  st.kind = (if at8 img (o + 5) = 0 then .allSet else if at8 img (o + 5) = 1 then .allClear
    else .pattern) ∧
  FlagsLoaded img (o + 6) st.mask ∧ FlagsLoaded img (o + 7) st.pattern ∧
  st.pulses = at16 img (o + 8) ∧ st.next = target (o + 10) ∧ st.faultNext = target (o + 11)

/-- Every item that is used stands where R198 lays it out: the station part, the lines below the line count
(R192), the low thresholds and the steps below the step count. -/
def ImageLoaded (img : List Byte) (c : Cfg) : Prop :=
  StationLoaded img c ∧ (∀ i : LineNo, i.val < at8 img 1 → LineLoaded img i c.lines[i]) ∧
  (∀ x : SourceNo, c.lowThreshold[x] =
    65536 * at16 img (163 + 4 * x.val) + at16 img (165 + 4 * x.val)) ∧
  ∀ j, j < at8 img 24 → ∃ st, c.steps[j]? = some st ∧ StepLoaded img j st

/-! ## What a loaded configuration holds -/

/-- The items of a line in the ranges of R39, R51 and R198. -/
def LineCfg.ok (c : LineCfg) : Prop :=
  50 ≤ c.k ∧ c.k ≤ 2000 ∧ -32768 ≤ c.g ∧ c.g ≤ 32767 ∧ -512 ≤ c.oq ∧ c.oq ≤ 511 ∧
  c.fint ≤ 65535 ∧ 4 ≤ c.foamRun ∧ c.foamRun ≤ 255 ∧ 5 ≤ c.noFlow ∧ c.noFlow ≤ 50 ∧
  c.leakLimit ≤ 255 ∧
  (c.mode = .free → 100 ≤ c.presetA ∧ c.presetA ≤ 20000 ∧ 100 ≤ c.presetB ∧ c.presetB ≤ 20000)

/-- A step target below the step count, or END and FAIL (R156). -/
def StepTarget.ok (count : Nat) : StepTarget → Prop
  | .step n => n < count
  | .leave => True

/-- The items of a step in the ranges of R156. -/
def StepRec.ok (count : Nat) (st : StepRec) : Prop :=
  1 ≤ st.dwell ∧ st.dwell ≤ 4095 ∧ (st.limit = 0 ∨ (st.dwell ≤ st.limit ∧ st.limit ≤ 4095)) ∧
  st.pulses ≤ 65535 ∧ st.next.ok count ∧ st.faultNext.ok count

/-- The station part in the ranges of R76, R121, R150, R156 and R198, with its lines and steps. -/
def Cfg.ok (c : Cfg) : Prop :=
  (1 ≤ c.station ∧ c.station ≤ 32 ∧ c.lineCount ≤ 8 ∧
    250 ≤ c.announcePeriod ∧ c.announcePeriod ≤ 2000 ∧ c.announcePeriod % 50 = 0) ∧
  (1 ≤ c.cap ∧ c.cap ≤ 2040 ∧ -400 ≤ c.tset ∧ c.tset ≤ 800 ∧ -350 ≤ c.twarm ∧ c.twarm ≤ 800 ∧
    5 ≤ c.hyst ∧ c.hyst ≤ 50 ∧ c.dgain ≤ 255 ∧ c.dpour ≤ 63 ∧ c.dfault ≤ 255 ∧
    1 ≤ c.ms ∧ c.ms ≤ 4095 ∧ -1000 ≤ c.os ∧ c.os ≤ 1000) ∧
  (1 ≤ c.pace ∧ c.pace ≤ 8 ∧ 5 ≤ c.maxPour ∧ c.maxPour ≤ 60 ∧ c.holdWait ≤ 10 ∧
    1 ≤ c.cleanSlots ∧ c.cleanSlots ≤ 8 ∧ 10 ≤ c.runLimit ∧ c.runLimit ≤ 240 ∧
    c.threshold ∈ [16, 32, 48, 56]) ∧
  (1 ≤ c.steps.length ∧ c.steps.length ≤ 24 ∧ c.entry1 < c.steps.length ∧
    c.entry2 < c.steps.length ∧ ∀ st ∈ c.steps, st.ok c.steps.length) ∧
  ∀ i : LineNo, i.val < c.lineCount → c.lines[i].ok

/-! ## Invariants of the blocks -/

/-- R53: at most four orders a line, with distinct tags, none the tag of the order in hand. -/
abbrev OrdersOk (s : State) : Prop :=
  ∀ i : LineNo, (s.line i).orders.length ≤ 4 ∧ ((s.line i).orders.map Order.tag).Nodup ∧
    ∀ tag ∈ inHand s i, tag ∉ (s.line i).orders.map Order.tag

/-- R134, R144, R145, R147: the grant stays within the demand and within Cap, the demand within 255, the
starved flag says that the grant is below the demand, and under cool-off the demand is 0 and GLY is
off. While UNCONFIGURED there is no configuration. -/
abbrev CoolingOk (s : State) : Prop :=
  s.cool.grant ≤ s.cool.demand ∧ s.cool.demand ≤ 255 ∧ s.cool.grant ≤ s.cfg.cap ∧
  s.cool.latched ≤ 255 ∧ s.cool.starved = decide (s.cool.grant < s.cool.demand) ∧
  (s.cool.coolOff = true → s.cool.demand = 0 ∧ s.cool.gly = false) ∧
  (s.cool.fault = false → s.cool.faultSamples = 0) ∧ s.cool.faultSamples ≤ 255 ∧
  (∀ t ∈ s.cool.temp, -400 ≤ t ∧ t ≤ 800) ∧
  s.cfg.dfault ≤ 255 ∧ (s.station = .unconfigured → s.config = none)

/-- R104, R110, R118, R121: the transmit queue holds at most four CHANGE frames, a current frame has met
at most seven collisions, the assembly is in READBACK exactly while a frame is being sent, a waiting
frame always has a current one, and in MUTE or while UNCONFIGURED nothing waits or is sent. -/
abbrev LinkOk (s : State) : Prop :=
  let k := s.link
  k.changes.length ≤ 4 ∧
  (∀ c ∈ k.current, c.k ≤ 7 ∧ (c.kind = .change → k.changes ≠ [])) ∧
  (k.current = none → k.changes = [] ∧ k.statusReq = false) ∧
  (k.rx = .readback ↔ k.tx.isSome = true) ∧ (k.tx.isSome = true → k.current.isSome = true) ∧
  (k.mute = true → k.current = none ∧ k.tx = none) ∧
  (s.station = .unconfigured → k.rx = .off ∧ k.current = none ∧ k.mute = false)

/-- R100, R114: while a frame is being sent the driver puts its characters on the pair, back to back from
the start of the attempt, and a character is still to be read back. -/
abbrev DriverOk (s : State) : Prop :=
  ∀ f ∈ s.link.tx, f.sent < f.chars.length ∧
    s.link.drive = some ⟨f.chars, f.began, f.began + 44 * f.chars.length⟩

/-- R127, R132: a STALE record has had no STATUS for at least 3000 ms. -/
abbrev StaleOk (s : State) : Prop :=
  ∀ n : Fin 32, ∀ p ∈ s.peer n, p.fresh = false → p.lastAt + 1500000 ≤ s.now

/-- The counters of the lines, the pours, the sources and the recipe stay inside their widths (R33, R36,
R37, R81, R157, R177). -/
abbrev WidthsOk (s : State) : Prop :=
  (∀ i : LineNo, (s.line i).creep ≤ 65535 ∧ (s.line i).consecFoam ≤ 255 ∧
    ∀ p ∈ (s.line i).pour, p.total ≤ 65535 ∧ p.foam ≤ p.total ∧ p.creep ≤ 65535) ∧
  (∀ x : SourceNo, (s.source x).own ≤ 4294967295 ∧ (s.source x).carry ≤ 4294967295) ∧
  (∀ i : LineNo, s.clean.stepCounts[i] ≤ 65535 ∧ s.clean.beerOut[i] ≤ 65535) ∧
  s.clean.age ≤ 255 ∧ s.link.charErr ≤ 65535 ∧ s.link.formatErr ≤ 65535 ∧
  s.link.crcErr ≤ 65535 ∧ s.link.collisions ≤ 65535 ∧ s.link.drops ≤ 65535

/-- A line with a pour in progress (R1, R15). -/
def Line.inPour (l : Line) : Bool := l.state == .pouring || l.state == .afterRun

/-- R1, R16, R19: a line holds a pour context exactly in POURING and AFTER-RUN, with an end reason exactly
in AFTER-RUN, and the count of pours in progress is the number of such lines. -/
abbrev PoursOk (s : State) : Prop :=
  (∀ i : LineNo, ((s.line i).pour.isSome = (s.line i).inPour) ∧
    (∀ p ∈ (s.line i).pour, (p.endReason.isSome = true ↔ (s.line i).state = .afterRun))) ∧
  s.pours = (allLines.filter fun i => (s.line i).inPour).length

/-- R64, R66, R67, R173: every slot reserved belongs to a pour in progress or to the run, and the records
held with the slots reserved never exceed 64. -/
abbrev LedgerOk (s : State) : Prop :=
  s.journal.reserved = s.pours + s.clean.slots ∧
  s.journal.records.length + s.journal.reserved ≤ 64 ∧
  s.clean.slots = match s.clean.job with
    | some j => 1 + (linesOf j.lines).length
    | none => 0

/-- R11: the pending start list holds exactly one entry for each WAITING line, and none for another. -/
abbrev StartsOk (s : State) : Prop :=
  (s.starts.map StartEntry.line).Nodup ∧
  ∀ i : LineNo, (s.line i).state = .waiting ↔ i ∈ s.starts.map StartEntry.line

/-- R173, R176, R27: what the run state says of the lines. Past PREPARING every selected line is RESERVED,
or CLEANING in RUNNING; no other line is; and cleaning marks stand on pouring selected lines in
PREPARING alone. -/
abbrev RunOk (s : State) : Prop :=
  (s.clean.runState = .idle ↔ s.clean.job = none) ∧
  (s.clean.runState = .running ↔ s.clean.progress.isSome = true) ∧
  ∀ i : LineNo,
    ((s.line i).state = .cleaning ↔ (s.clean.runState = .running ∧ i ∈ s.selected)) ∧
    ((s.line i).state = .reserved → i ∈ s.selected ∧
      (s.clean.runState = .preparing ∨ s.clean.runState = .claiming)) ∧
    (s.clean.runState = .claiming → i ∈ s.selected → (s.line i).state = .reserved) ∧
    ((s.line i).cleanMark = true ↔
      (s.clean.runState = .preparing ∧ i ∈ s.selected ∧ (s.line i).inPour = true)) ∧
    (s.clean.runState = .preparing → i ∈ s.selected →
      (s.line i).state = .reserved ∨ (s.line i).inPour = true)

/-- R7: a faucet valve is open only while its line is POURING, or is selected by a run in RUNNING whose
outputs in force have FAUCETS. -/
abbrev ValvesOk (s : State) : Prop :=
  ∀ i : LineNo, (s.line i).valve ≠ .closed →
    (s.line i).state = .pouring ∨
      (s.clean.runState = .running ∧ i ∈ s.selected ∧ s.clean.out.faucets = true)

/-- R1, R2, R29, R191: how the line states stand to the station state and to the lock reasons. -/
abbrev LinesOk (s : State) : Prop :=
  (s.station = .unconfigured ↔ s.config = none) ∧
  ∀ i : LineNo,
    (s.configured i = false → (s.line i).state = .off ∧ (s.line i).flashFrom = none) ∧
    (s.station = .running → s.configured i = true → (s.line i).state ≠ .off) ∧
    (s.station ≠ .running → (s.line i).state = .off ∨ (s.line i).state = .afterRun) ∧
    ((s.line i).state = .locked ↔ (s.line i).lock ≠ .clear ∧ (s.line i).state ≠ .off)

/-- The blocks of the tower, the journal and the run taken together. -/
def StationOk (s : State) : Prop :=
  PoursOk s ∧ LedgerOk s ∧ StartsOk s ∧ RunOk s ∧ ValvesOk s ∧ LinesOk s ∧
  (s.station ≠ .running → s.clean.runState = .idle ∧ s.starts = [])

/-- The lamps follow their lines (R6). -/
abbrev LampsOk (s : State) : Prop := ∀ i : LineNo, (s.line i).lamp = lampPattern s i

end Sys2Proof.Machine
end

