-- ==== Sys2Proof/Certificates/Slice0/Obligations.lean ====
section
/-! DEFINITION. The statements put to the provers: what each command and event of the block does, what it
leaves alone, and what every step keeps. -/

open Sys2Proof Sys2Proof.Machine

/-! ## The queue, reset and the terminal port -/

/-- The step takes the command at the front of the queue and runs it with the queue's rest. That commands
wait in a queue is the model's choice (DESIGN CHOICE, log 25); no rule of the spec states it. -/
def Obligations.StepRunsFrontCommand : Prop :=
  ∀ (c : Instr) (rest : List Instr) (s : State), s.pending = c :: rest →
    step s = exec c { s with pending := rest }

/-- On an empty queue the block's own clock acts (the model's choice, log 1, 2, 26 and 35): an event that
has come due by the durations of its rule, in units of 2 µs, with the receiver going on after a character
start, and after a character ready for the next start or, its stop bit at space, waiting for mark (R101). The
levels that the receiver samples are read with mark as a one (PRESUMED, log 37). RDY rises at the bound of 2 ms, for which R188 and R193 give no moment
(log 5), a sample has the code of TSNS, a free value (log 4), a missing character is judged at its stop
bit's end, before any other event of that moment (log 22), and the gap and the wait end at the moments of log 27; or, when none has, one unit of
time passes and each input sees its pin: the debounce of R4 and R158, the two samples of R31, the bits of
R101. -/
def Obligations.EmptyQueueStep : Prop :=
  ∀ s : State, s.pending = [] →
    (∀ c, due s = some c → DueNow c s ∧ step s = exec c { s with link := { s.link with
      recv := match c with
        | .characterStart => .busy s.now []
        | .characterTaken _ _ => match s.link.recv with
          | .busy _ bits => if bits.getD 10 false = true then .mark else .wait
          | r => r
        | _ => s.link.recv } }) ∧
    (DueNow .collision s → due s = some .collision) ∧
    (due s = none → (∀ c, ¬ DueNow c s) ∧ ∃ t, step s = .next t ∧ UnitPasses s t)

/-- What reset leaves, as R1, R4, R11, R15, R31, R53, R65, R80, R81, R121, R122, R134, R157, R158, R173,
R190, R191 and R193 state it. -/
def Obligations.ResetState : Prop :=
  let s := State.reset
  (s.station = .unconfigured ∧ s.config = none ∧ s.attn.any = false ∧ s.seconds = 0 ∧
    s.port.rdy = false ∧ s.port.held = none ∧ s.pending = []) ∧
  (∀ i : LineNo, (s.line i).state = .off ∧ (s.line i).lock = .clear ∧ (s.line i).creep = 0 ∧
    (s.line i).pour = none ∧ (s.line i).lastPour = none ∧ (s.line i).remembered = none ∧
    (s.line i).cleanMark = false ∧ (s.line i).flashFrom = none ∧ (s.line i).consecFoam = 0 ∧
    (s.line i).intervalFrom = none ∧ (s.line i).orders = [] ∧ (s.line i).handle.level = false ∧
    (s.line i).keyA.level = false ∧ (s.line i).keyB.level = false ∧
    (s.line i).meter.high = false) ∧
  (s.starts = [] ∧ s.pours = 0 ∧ s.journal = { records := [], reserved := 0, seq := 0 }) ∧
  (∀ x : SourceNo, s.source x =
    { gen := 0, full := 0, own := 0, carry := 0, empty := false, low := false }) ∧
  (∀ n : Fin 32, s.peer n = none) ∧
  (s.link.rx = .off ∧ s.link.statusReq = false ∧ s.link.changes = [] ∧ s.link.current = none ∧
    s.link.charErr = 0 ∧ s.link.formatErr = 0 ∧ s.link.crcErr = 0 ∧ s.link.collisions = 0 ∧
    s.link.drops = 0 ∧ s.link.mute = false ∧ s.link.announceFrom = none ∧ driverOn s = false) ∧
  (s.cool.lastCode = 0 ∧ s.cool.temp = none ∧ s.cool.fault = false ∧ s.cool.faultSamples = 0 ∧
    s.cool.demand = 0 ∧ s.cool.grant = 0 ∧ s.cool.latched = 0 ∧ s.cool.frameFrom = none ∧
    s.cool.sampleFrom = none ∧ s.cool.starved = false ∧ s.cool.warmHold = false ∧
    s.cool.coolOff = false ∧ s.cool.gly = false) ∧
  (s.clean.runState = .idle ∧ s.clean.runNumber = 0 ∧ s.clean.job = none ∧ s.clean.slots = 0 ∧
    s.clean.age = 0 ∧ s.clean.progress = none ∧ s.clean.flags = .none)

/-- RSTN (R121, R186, R193): at its fall every block takes its reset state at once; while it is held low
every output is undriven, SDO and the cellar link among them, RDY and ATN are low, and nothing is taken (the
last is the model's choice, log 7); its release leaves every block in its reset state, also where it was not
low (the model's choice, log 34). -/
def Obligations.RstnResets : Prop :=
  ∀ s : State,
    exec .rstnAssert s = .next { afterReset s with rstnLow := true } ∧
    exec .rstnRelease s = .next (afterReset s) ∧
    (s.rstnLow = true →
      (∀ c, c ≠ .rstnRelease → c ≠ .rstnAssert → exec c s = .next s) ∧
      (∀ i, vlvPin s i = .undriven ∧ lmpPin s i = none) ∧
      glyPin s = false ∧ waterPin s = false ∧ chemPin s = false ∧ airPin s = false ∧
      pumpPin s = false ∧ rdyPin s = false ∧ atnPin s = false ∧ sdoPin s = none ∧
      driverOn s = false ∧ pairPin s = none)

/-- A command period that is not executed (R189, R193): begun with RDY low it leaves only the OVERRUN
marker; begun while a RESET waits it makes the reset act; and the reset acts too when its response is not
read in time. That the command period which makes the reset act leaves no OVERRUN marker is the model's
reading (log 8). -/
def Obligations.NotExecuted : Prop :=
  ∀ (c : Instr) (s : State), s.rstnLow = false →
    (fromTerminal c = true → s.port.rdy = false →
      exec c s = .next { s with port :=
        match s.port.preparing with
        | some r => { s.port with preparing := some { r with overrun := true } }
        | none => { s.port with overrunNext := true } }) ∧
    (fromTerminal c = true → s.port.rdy = true → s.port.resetArm.isArmed = true →
      exec c s = .next (afterReset s)) ∧
    (s.port.resetArm.isArmed = true → exec .resetResponseTimeout s = .next (afterReset s))

/-- The periods of the port (R188, R189, R193): a read period shifts out the response frame and then 00h,
and consumes it; a prepared response is held and RDY rises; after a reset RDY rises with nothing held; a
command that is not executed is answered BAD-ARG with no data. -/
def Obligations.PortPeriods : Prop :=
  ∀ s : State, s.rstnLow = false →
    (∀ n : Nat, 1 ≤ n →
      let frame := match s.port.held with
        | some r => BitVec.ofNat 8 (r.status.code + if r.overrun then 128 else 0) ::
            (bytes16 (BitVec.ofNat 16 r.data.length) ++ r.data)
        | none => []
      let out := (frame ++ List.replicate n 0).take n
      exec (.readPeriod n) s =
        if s.port.held.isSome && s.port.resetArm.isArmed then
          .next { afterReset s with port := { Port.reset with since := s.now, sdo := out } }
        else .next { s with port := { s.port with held := none, sdo := out } }) ∧
    (∀ r, s.port.preparing = some r →
      exec .responseReady s = .next { s with port := { s.port with
        held := some r, preparing := none, rdy := true,
        resetArm := match s.port.resetArm with
          | .preparing => .armed s.now
          | a => a } }) ∧
    (s.port.preparing = none →
      exec .portReadyAfterReset s = .next { s with port := { s.port with rdy := true } }) ∧
    (s.accepts → exec .commandNotExecuted s = .next (answer .badArg [] s))

/-- RESET (R193): answered OK, held as any response, and acting when a read period consumes the answer.
The block is then in its reset state, with the answer shifted out. -/
def Obligations.ResetCommandActs : Prop :=
  ∀ (s : State) (n : Nat), s.accepts → 1 ≤ n →
    exec .reset s =
      .next (answer .ok [] { s with port := { s.port with resetArm := .preparing } }) ∧
    execAll [.reset, .responseReady, .readPeriod n] s =
      .next { afterReset s with port := { Port.reset with
        since := s.now,
        sdo := ([if s.port.overrunNext then 0x81 else 0x01, 0, 0] ++ List.replicate n 0).take n } }

/-! ## Encodings -/

/-- Every well-formed command of the terminal, and every read period, is read back from the select period
that sends it (R188, R189, R195). -/
def Obligations.SelectRoundTrip : Prop :=
  ∀ (i : Instr) (bytes : List Byte), i.wf = true → encodeSelect i = some bytes →
    decodeSelect bytes = some i

/-- The characters of a valid frame, taken one by one from HUNT, have the effect of the arrival of that
frame (R102 to R107, R196). That both rows, CHARACTER_TAKEN and VALID_FRAME_ARRIVAL, do the whole event is
the model's choice (log 16). -/
def Obligations.LinkCharactersRoundTrip : Prop :=
  ∀ (f : LinkFrame) (s : State), f.wf = true → s.rstnLow = false → s.link.rx = .hunt →
    execAll (f.chars.map fun c => .characterTaken c false) s = exec (.validFrameArrival f) s

/-- How a command period is judged (R189, R195): fewer than 3 bytes, fewer than 3 plus the payload
length, a code not listed or a payload of another length are not executed; bytes beyond are ignored. -/
def Obligations.SelectPeriodsJudged : Prop :=
  (∀ code l1 l0 : Byte, ∀ payload extra : List Byte, code ≠ 0 →
    decodeSelect [code] = some .commandNotExecuted ∧
    decodeSelect [code, l1] = some .commandNotExecuted ∧
    (payload.length < (be16 l1 l0).toNat →
      decodeSelect (code :: l1 :: l0 :: payload) = some .commandNotExecuted) ∧
    (payload.length = (be16 l1 l0).toNat →
      decodeSelect (code :: l1 :: l0 :: (payload ++ extra)) =
        some (decodeCommand code.toNat payload))) ∧
  (∀ (code len : Nat) (payload : List Byte),
    (code, len) ∈ [(0x11, 0), (0x12, 0), (0x13, 0), (0x20, 0), (0x21, 1), (0x22, 1), (0x23, 1),
      (0x24, 0), (0x25, 0), (0x30, 0), (0x40, 5), (0x41, 3), (0x42, 1), (0x43, 1), (0x44, 5),
      (0x50, 5), (0x60, 2), (0x61, 0), (0x70, 0)] →
    (decodeCommand code payload = .commandNotExecuted ↔ payload.length ≠ len)) ∧
  (∀ (code : Nat) (payload : List Byte),
    code ∉ [0x10, 0x11, 0x12, 0x13, 0x20, 0x21, 0x22, 0x23, 0x24, 0x25, 0x30, 0x40, 0x41, 0x42, 0x43,
      0x44, 0x50, 0x60, 0x61, 0x70] → decodeCommand code payload = .commandNotExecuted) ∧
  decodeSelect [0x40, 0, 5, 3, 0x01, 0xF5, 0x12, 0x7A] = some (.order 3 501 4730) ∧
  decodeSelect [0x50, 0, 5, 4, 0, 0x07, 0xA1, 0x20] = some (.sourceChange 4 500000)

/-! ## Reading commands -/

/-- The reading commands answer with the fields of their rules, each encoded as R195 gives, and change
nothing but the port (R30, R97, R132, R153, R172, R187, R194); READ-LINK also clears the five counters it
returns (R120), and READ-ATTENTION the set, so that ATN is low (R190). The model's choices are the presence
and count bytes of log 11, the current-frame bytes of READ-LINK (log 13) and the 2 bytes of time in step and
run time (log 14), and times rounded down to their units (log 10); that a FRESH time shows as at most 2999
is its reading (log 38). -/
def Obligations.ReadingCommands : Prop :=
  ∀ s : State, s.accepts →
    let b1 := fun n : Nat => [BitVec.ofNat 8 n]
    let b2 := fun n : Nat => bytes16 (BitVec.ofNat 16 n)
    let b4 := fun n : Nat => bytes32 (BitVec.ofNat 32 n)
    let yes := fun b : Bool => [if b then (1 : Byte) else 0]
    let present := [(1 : Byte)]
    let absent := [(0 : Byte)]
    let opt := fun (o : Option (List Byte)) => match o with
      | some data => present ++ data
      | none => absent
    let lineSet := fun f : LineNo → Bool =>
      [BitVec.ofBoolListLE [f 0, f 1, f 2, f 3, f 4, f 5, f 6, f 7]]
    let attention := [BitVec.ofBoolListLE [s.attn.journalLevel, s.attn.sourceLow, s.attn.sourceEmpty,
      s.attn.lineLocked, s.attn.cleanEnd, s.attn.mute, s.attn.linkDrop, s.attn.sensorFault]]
    let f := s.clean.flags
    let flags := [BitVec.ofBoolListLE [f.flow, f.volume, f.chem, f.clear, f.ext, false, false, false]]
    let lineState := fun i => b1 (match (s.line i).state with
      | .off => 0 | .ready => 1 | .waiting => 2 | .pouring => 3 | .afterRun => 4 | .reserved => 5
      | .cleaning => 6 | .locked => 7)
    let kind := fun e : StartEntry => b1 (match e.kind with
      | .handle => 0 | .keyA => 1 | .keyB => 2)
    let reason := fun r : EndReason => b1 (match r with
      | .target => 0 | .release => 1 | .foamOut => 2 | .noFlow => 3 | .timeLimit => 4
      | .overrange => 5 | .cancelled => 6 | .stopped => 7)
    let station := b1 (match s.station with
      | .unconfigured => 0 | .stopped => 1 | .running => 2) ++ attention
    let general := b1 s.cfg.station ++ b1 s.cfg.lineCount ++ yes s.link.mute ++ bytes32 s.seconds ++
      b1 s.journal.records.length ++ b1 s.journal.reserved ++ allLines.flatMap lineState ++
      b1 s.pours ++ b1 s.starts.length ++ s.starts.flatMap fun e => b1 e.line.val ++ kind e
    let k := s.cool
    let cooling := opt (k.temp.map fun t => bytes16 (BitVec.ofInt 16 t)) ++ b2 k.lastCode.toNat ++
      yes k.fault ++ b1 k.faultSamples ++ b1 k.demand ++ b2 k.freshDemand ++ b1 k.grant ++
      b1 k.latched ++ b2 (match k.frameFrom with
        | some since => min ((s.now - since) / 500) 2559
        | none => 0) ++ yes k.starved ++ yes k.warmHold ++ yes k.coolOff
    let c := s.clean
    let recipe := match c.progress with
      | none => absent ++ absent ++ absent ++ absent ++ flags ++ absent ++ absent
      | some p =>
        present ++ b1 p.step ++ present ++ b1 (if p.phase = .dwell then 0 else 1) ++
        present ++ b2 ((s.now - p.stepFrom) / 500000) ++
        present ++ yes (advanceTest (s.stepAt p.step) f) ++ flags ++
        present ++ b2 ((s.now - p.runFrom) / 500000) ++
        present ++ b1 s.selected.length ++
          s.selected.flatMap fun i => b2 c.stepCounts[i] ++ b2 c.beerOut[i]
    let run := b1 (match c.runState with
        | .idle => 0 | .preparing => 1 | .claiming => 2 | .running => 3) ++ bytes16 c.runNumber ++
      opt (c.job.map fun j => b1 j.entry ++ [j.lines] ++ bytes32 j.start) ++ b1 c.slots ++ b1 c.age ++
      (if c.runState = .claiming then present ++ b1 c.ahead else absent) ++
      (if c.runState = .preparing then present ++ lineSet fun i => s.selected.contains i &&
          ((s.line i).state == .pouring || (s.line i).state == .afterRun) else absent)
    let lineFields := fun i : LineNo =>
      let l := s.line i
      let g := s.lineCfg i
      lineState i ++ b1 (match l.lock with
        | .clear => 0 | .foamOut => 1 | .leak => 2 | .cleanIncomplete => 3) ++
      opt (if s.configured i = true
        then some (b1 (if g.mode = .free then 0 else 1) ++ b1 g.source.val) else none) ++
      b2 l.creep ++ b1 (match l.remembered with
        | none => 0 | some .a => 1 | some .b => 2) ++
      opt ((s.starts.find? fun e => e.line == i).map fun e => kind e ++
        opt (e.expiry.map fun t => b1 ((t - s.now + 499999) / 500000))) ++
      opt (l.pour.map fun p => b1 (match p.mode with
          | .free => 0 | .presetA => 1 | .presetB => 2 | .order => 3) ++
        opt (p.tag.map bytes16) ++ opt (p.pulseTarget.map b2) ++ b2 p.total ++ b2 p.foam ++
        b2 (min ((s.now - p.openedAt) / 5000) 65535) ++ opt (p.endReason.map reason)) ++
      opt (l.lastPour.map fun r => reason r.endReason ++ b2 r.beer ++ b4 r.vr)
    let sourceFields := fun x : SourceNo =>
      let r := s.source x
      let counted := s.peers.toList.filterMap fun o => o.bind fun p =>
        (listed p.body.entries x).bind fun e => if e.gen = r.gen then some e.cum.toNat else none
      let drawn := r.own + r.carry + counted.sum
      [r.gen] ++ b4 r.full ++ b4 r.own ++ b4 r.carry ++ b4 (min counted.sum 4294967295) ++
      b1 counted.length ++ b4 (min drawn 4294967295) ++
      opt (if r.full = 0 then none else some (b4 (r.full - drawn))) ++ yes r.empty ++ yes r.low ++
      b4 s.cfg.lowThreshold[x] ++ lineSet fun i => s.configured i && (s.lineCfg i).source == x
    let table := fun b : Byte => b1 (s.peers.toList.filter Option.isSome).length ++
      opt (((List.finRange 32).find? fun m => b.toNat < m.val + 1 && (s.peer m).isSome).map
        fun m => b1 (m.val + 1))
    let peerFields := fun (b : Byte) (p : PeerRec) =>
      let ms := (s.now - p.lastAt) / 500
      [b] ++ b1 (if p.fresh then 0 else 1) ++ b2 (min ms (if p.fresh then 2999 else 65535)) ++
      b1 (if p.body.running = .stopped then 0 else 1) ++ [p.body.demand] ++
      b1 (match p.body.clean with
        | .none => 0 | .claiming => 1 | .active => 2) ++
      [p.body.age] ++ b1 p.body.entries.length ++ p.body.entries.zipIdx.flatMap fun e =>
        [e.1.source, e.1.gen] ++ yes e.1.empty ++ bytes32 e.1.full ++ bytes32 e.1.cum ++
        yes (!((p.body.entries.take e.2).any fun q => q.source == e.1.source) &&
          allSources.any fun x => e.1.source.toNat == x.val && e.1.gen == (s.source x).gen)
    exec .readStatus s = .next (answer .ok (if s.station = .unconfigured then station ++ flags
      else station ++ general ++ cooling ++ recipe ++ run) s) ∧
    (∀ b : Byte,
      (s.station = .unconfigured → exec (.readLine b) s = .next (answer .badState [] s) ∧
        exec (.readSource b) s = .next (answer .badState [] s) ∧
        exec (.readPeer b) s = .next (answer .badState [] s)) ∧
      (s.station ≠ .unconfigured →
        (8 ≤ b.toNat → exec (.readLine b) s = .next (answer .badArg [] s)) ∧
        (16 ≤ b.toNat → exec (.readSource b) s = .next (answer .badArg [] s)) ∧
        (b.toNat = 0 ∨ 33 ≤ b.toNat → exec (.readPeer b) s = .next (answer .badArg [] s)) ∧
        (∀ i : LineNo, b.toNat = i.val →
          exec (.readLine b) s = .next (answer .ok (lineFields i) s)) ∧
        (∀ x : SourceNo, b.toNat = x.val →
          exec (.readSource b) s = .next (answer .ok (sourceFields x) s)) ∧
        (∀ n : Fin 32, b.toNat = n.val + 1 →
          exec (.readPeer b) s = .next (match s.peer n with
            | none => answer .notFound (table b) s
            | some p => answer .ok (table b ++ peerFields b p) s)))) ∧
    (s.station = .unconfigured → exec .readLink s = .next (answer .badState [] s)) ∧
    (s.station ≠ .unconfigured →
      exec .readLink s = .next (answer .ok
        (([s.link.charErr, s.link.formatErr, s.link.crcErr, s.link.collisions,
            s.link.drops].flatMap b2) ++ yes s.link.mute ++ b1 s.link.changes.length ++
          yes s.link.statusReq ++ (match s.link.current with
            | none => [0, 0]
            | some c => [if c.kind = .status then 1 else 2, 1, BitVec.ofNat 8 c.k]))
        { s with link := { s.link with
            charErr := 0, formatErr := 0, crcErr := 0, collisions := 0, drops := 0 } })) ∧
    (∃ t, exec .readAttention s = .next t ∧ atnPin t = false ∧
      t = answer .ok attention { s with attn := .none })

/-! ## Configuration and station states -/

/-- CONFIGURE (R191, R192): refused once configured; BAD-CONFIG with the index of the failing item leaves
everything as it was; an image that passes is loaded, the station becomes STOPPED, station seconds, the
link and the Cooling Controller start, and the first STATUS becomes current at once (R121). Every item used
is loaded from its offset (R198). That BAD-STATE comes before any look at the image, its length included, is
the model's reading (log 33). -/
def Obligations.ConfigureCommand : Prop :=
  ∀ (img : List Byte) (s : State), s.accepts →
    (s.station ≠ .unconfigured →
      exec (.configure img) s = .next (answer .badState [] s)) ∧
    (∀ k, s.station = .unconfigured → imageFault img = some k →
      exec (.configure img) s =
        .next (answer .badConfig (bytes16 (BitVec.ofNat 16 k)) s)) ∧
    (s.station = .unconfigured → s.link.mute = false → s.link.changes = [] →
      s.link.current = none → imageFault img = none →
      ImageLoaded img (loadCfg img) ∧ exec (.configure img) s = .next (answer .ok [] { s with
        config := some (loadCfg img), station := .stopped, seconds := 0, secondFrom := some s.now,
        link := { s.link with
          rx := .discard, idleFrom := some s.now, announceFrom := some s.now, statusReq := true,
          current := some ⟨.status, 0⟩ },
        cool := { s.cool with
          sampleFrom := some s.now, latched := s.cool.grant, frameFrom := some s.now,
          gly := decide (0 < s.cool.grant) } }))

/-- The image check (R192, R198): a wrong length is index 0; otherwise the index reported is that of a
failing item, and no item of a lower index fails; and a configuration whose image passes holds every
value in the range that the chapters give for it, each item used loaded from its offset and width. The
checks, item by item with offset and range, are those of ItemFails; the items loaded are in ImageLoaded. -/
def Obligations.ImageChecked : Prop :=
  (∀ img : List Byte, img.length ≠ 515 → imageFault img = some 0) ∧
  (∀ (img : List Byte) (k : Nat), img.length = 515 → imageFault img = some k →
    (k, false) ∈ imageChecks img ∧ ∀ k', (k', false) ∈ imageChecks img → k ≤ k') ∧
  (∀ img : List Byte, img.length = 515 →
    (imageFault img = none ↔ ∀ k, ¬ ItemFails img k) ∧
    (∀ k, imageFault img = some k ↔ ItemFails img k ∧ ∀ k', ItemFails img k' → k ≤ k')) ∧
  (∀ img : List Byte, imageFault img = none → (loadCfg img).ok ∧ ImageLoaded img (loadCfg img))

/-- START (R3, R191): answered OK in STOPPED; every last-pour record is discarded, each configured OFF
line goes to LOCKED or READY by its lock reason, other lines keep their state, and a STATUS is
requested. -/
def Obligations.StartCommand : Prop :=
  ∀ s : State, s.accepts →
    (s.station ≠ .stopped → exec .start s = .next (answer .badState [] s)) ∧
    (s.station = .stopped → ∃ t, exec .start s = .next (answer .ok [] t) ∧
      t.station = .running ∧ StatusRequested s t ∧ Only [.station, .lines, .link] s t ∧
      ∀ i : LineNo, (t.line i).sansLamp = ({ s.line i with
        lastPour := none,
        state := if s.configured i ∧ (s.line i).state = .off then
            (if (s.line i).lock = .clear then .ready else .locked)
          else (s.line i).state } : Line).sansLamp)

/-- STOP (R29, R186, R191): answered OK in RUNNING; the pending start list is emptied with refusal, pours
end STOPPED, every other line goes OFF, order queues and last-pour records are kept, and a STATUS is
requested. A run that is not IDLE ends ABORTED with its records, their numbers and its slots: from RUNNING
with WASTE records and CLEAN-INCOMPLETE locks (R182, R184), from PREPARING or CLAIMING with marks withdrawn
(R183). The duration of a pour rounded down is the model's choice (log 10), that of a CLEAN record modulo
2^32 its reading (log 20). -/
def Obligations.StopCommand : Prop :=
  ∀ s : State, s.accepts →
    (s.station ≠ .running → exec .stop s = .next (answer .badState [] s)) ∧
    (s.station = .running → StationOk s → ∃ t, exec .stop s = .next (answer .ok [] t) ∧
      t.station = .stopped ∧ t.starts = [] ∧ StatusRequested s t ∧
      Only [.station, .lines, .starts, .journal, .sources, .attn, .link, .cool, .clean] s t ∧
      (∀ i : LineNo, (t.line i).orders = (s.line i).orders ∧
        (t.line i).lastPour = (s.line i).lastPour) ∧
      (∀ i, i ∉ s.selected → (t.line i).sansLamp = (stoppedLine s.now (s.line i)).sansLamp) ∧
      (s.clean.runState = .idle → Only [.station, .lines, .starts, .link] s t) ∧
      (∀ j p, s.clean.runState = .running → s.clean.job = some j → s.clean.progress = some p →
        let written := runRecords s j .aborted p.step
        t.clean = endedRun s.clean ∧ t.cool = { s.cool with coolOff := false } ∧
        t.journal = runJournal s written ∧ Drew written s t ∧
        t.attn = { attnWritten s t with
          lineLocked := s.attn.lineLocked || decide (linesOf j.lines ≠ []), cleanEnd := true } ∧
        ∀ i ∈ linesOf j.lines, LineBecomes t i { s.line i with
          valve := .closed, creep := 0, lock := .cleanIncomplete, state := .off }) ∧
      (∀ j, s.clean.runState = .preparing ∨ s.clean.runState = .claiming → s.clean.job = some j →
        t.clean = idleRun s.clean ∧ t.cool = s.cool ∧ t.sources = s.sources ∧
        t.journal = runJournal s [cleanRecord s j s.journal.seq .aborted none] ∧
        t.attn = { attnWritten s t with cleanEnd := true } ∧
        ∀ i ∈ linesOf j.lines, (t.line i).sansLamp =
          (if (s.line i).state = .reserved then
              ({ s.line i with state := .off, lock := .clear } : Line)
            else { stoppedLine s.now (s.line i) with cleanMark := false }).sansLamp))

/-! ## Orders -/

/-- ORDER (R54, R55, R58): the tests in order, each with its answer; a refused ORDER changes nothing, and
an accepted one joins the tail of its line's queue. Every OK, DUPLICATE and QUEUE-FULL carries the
picture of the queue as the command left it, in the bytes of pictureBytes; its single count byte is the
model's choice (log 12). -/
def Obligations.OrderCommand : Prop :=
  ∀ (line : Byte) (tag volume : BitVec 16) (s : State), s.accepts →
    (s.station = .unconfigured →
      exec (.order line tag volume) s = .next (answer .badState [] s)) ∧
    (s.station ≠ .unconfigured → 8 ≤ line.toNat →
      exec (.order line tag volume) s = .next (answer .badArg [] s)) ∧
    ∀ i : LineNo, s.station ≠ .unconfigured → line.toNat = i.val →
      exec (.order line tag volume) s = .next (
        if s.configured i = false ∨ (s.lineCfg i).mode = .free then answer .badState [] s
        else if tag = 0 ∨ volume.toNat < 100 ∨ 20000 < volume.toNat then answer .badArg [] s
        else if tag ∈ (s.line i).orders.map Order.tag ∨ inHand s i = some tag then
          answer .duplicate (pictureBytes (s.line i) none) s
        else if (s.line i).orders.length ≥ 4 then answer .queueFull (pictureBytes (s.line i) none) s
        else
          let t := s.setLine i
            { s.line i with orders := (s.line i).orders ++ [⟨tag, volume.toNat⟩] }
          answer .ok (pictureBytes (t.line i) none) t)

/-- CANCEL (R56 to R58): a queued order is removed and those behind it keep their order; the order in hand
of a POURING line has its pour ended CANCELLED; in AFTER-RUN nothing happens; an unknown tag is NOT-FOUND.
The model's choices are the pour's duration rounded down (log 10) and the single count byte of the queue
picture, whose bytes are those of pictureBytes (log 12). -/
def Obligations.CancelCommand : Prop :=
  ∀ (line : Byte) (tag : BitVec 16) (s : State), s.accepts →
    (s.station = .unconfigured → exec (.cancel line tag) s = .next (answer .badState [] s)) ∧
    (s.station ≠ .unconfigured → 8 ≤ line.toNat →
      exec (.cancel line tag) s = .next (answer .badArg [] s)) ∧
    ∀ i : LineNo, s.station ≠ .unconfigured → line.toNat = i.val →
      (s.configured i = false ∨ (s.lineCfg i).mode = .free →
        exec (.cancel line tag) s = .next (answer .badState [] s)) ∧
      (s.configured i = true → (s.lineCfg i).mode = .ordered →
        (tag = 0 → exec (.cancel line tag) s = .next (answer .badArg [] s)) ∧
        (tag ≠ 0 → tag ∈ (s.line i).orders.map Order.tag →
          exec (.cancel line tag) s = .next (
            let t := s.setLine i { s.line i with
              orders := (s.line i).orders.filter fun o => o.tag != tag }
            answer .ok (pictureBytes (t.line i) (some 0)) t)) ∧
        (tag ≠ 0 → tag ∉ (s.line i).orders.map Order.tag → inHand s i = some tag →
          ((s.line i).state = .pouring → ∀ p, (s.line i).pour = some p →
            ∃ t, exec (.cancel line tag) s =
                .next (answer .ok (pictureBytes (t.line i) (some 1)) t) ∧
              inHand t i = some tag ∧ PourEnds i .cancelled p s t) ∧
          ((s.line i).state ≠ .pouring →
            exec (.cancel line tag) s =
              .next (answer .ok (pictureBytes (s.line i) (some 2)) s))) ∧
        (tag ≠ 0 → tag ∉ (s.line i).orders.map Order.tag → inHand s i ≠ some tag →
          exec (.cancel line tag) s = .next (answer .notFound (pictureBytes (s.line i) none) s)))

/-! ## Commands on a line -/

/-- POUR-STOP, by the table of R28. The duration of the pour that it ends, rounded down, is the model's
choice (log 10). -/
def Obligations.PourStopCommand : Prop :=
  ∀ (line : Byte) (s : State), s.accepts →
    (s.station ≠ .running → exec (.pourStop line) s = .next (answer .badState [] s)) ∧
    (s.station = .running → 8 ≤ line.toNat →
      exec (.pourStop line) s = .next (answer .badArg [] s)) ∧
    ∀ i : LineNo, s.station = .running → line.toNat = i.val →
      (s.configured i = false → exec (.pourStop line) s = .next (answer .badArg [] s)) ∧
      (s.configured i = true →
        (∀ p, (s.line i).state = .pouring → (s.line i).pour = some p →
          ∃ t, exec (.pourStop line) s = .next (answer .ok [] t) ∧ PourEnds i .stopped p s t) ∧
        ((s.line i).state = .waiting →
          ∃ t, exec (.pourStop line) s = .next (answer .ok [] t) ∧ EntryRefused i .ready s t) ∧
        ((s.line i).state = .afterRun →
          exec (.pourStop line) s =
            .next (answer .ok [] (s.setLine i { s.line i with remembered := none }))) ∧
        ((s.line i).state = .ready ∨ (s.line i).state = .locked ∨ (s.line i).state = .reserved ∨
            (s.line i).state = .cleaning →
          exec (.pourStop line) s = .next (answer .badState [] s)))

/-- UNLOCK, by the table of R26: it clears any lock reason, a LOCKED line goes to READY, any other line
keeps its state, the lamp follows, and nothing else changes (no creep count, no EMPTY status, no service
walk). -/
def Obligations.UnlockCommand : Prop :=
  ∀ (line : Byte) (s : State), s.accepts →
    (s.station = .unconfigured → exec (.unlock line) s = .next (answer .badState [] s)) ∧
    (s.station ≠ .unconfigured → 8 ≤ line.toNat →
      exec (.unlock line) s = .next (answer .badArg [] s)) ∧
    ∀ i : LineNo, s.station ≠ .unconfigured → line.toNat = i.val →
      (s.configured i = false → exec (.unlock line) s = .next (answer .badArg [] s)) ∧
      (s.configured i = true → (s.line i).lock = .clear →
        exec (.unlock line) s = .next (answer .badState [] s)) ∧
      (s.configured i = true → (s.line i).lock ≠ .clear →
        ∃ t, exec (.unlock line) s = .next (answer .ok [] t) ∧
          LineBecomes t i { s.line i with
            lock := .clear,
            state := if (s.line i).state = .locked then .ready else (s.line i).state } ∧
          OtherLines i s t ∧ Only [.lines] s t)

/-- CALIBRATE (R47, R48, R49): the tests in order; a gain in range becomes the line's working gain and is
returned; nothing else of the configuration or of the machine changes. -/
def Obligations.CalibrateCommand : Prop :=
  ∀ (line : Byte) (va : BitVec 32) (s : State), s.accepts →
    (s.station = .unconfigured → exec (.calibrate line va) s = .next (answer .badState [] s)) ∧
    (s.station ≠ .unconfigured → 8 ≤ line.toNat →
      exec (.calibrate line va) s = .next (answer .badArg [] s)) ∧
    ∀ i : LineNo, s.station ≠ .unconfigured → line.toNat = i.val →
      (s.configured i = false ∨ va.toNat = 0 ∨ 2000000 < va.toNat →
        exec (.calibrate line va) s = .next (answer .badArg [] s)) ∧
      (s.configured i = true → 1 ≤ va.toNat → va.toNat ≤ 2000000 →
        ((s.line i).lastPour = none →
          exec (.calibrate line va) s = .next (answer .notFound [] s)) ∧
        (∀ r c, (s.line i).lastPour = some r → s.config = some c →
          let n := (65536 + r.g).toNat * va.toNat * 100
          let g : Int := (((2 * n + r.v) / (2 * r.v) : Nat) : Int) - 65536
          exec (.calibrate line va) s = .next (
            if (r.endReason ≠ .target ∧ r.endReason ≠ .release) ∨ r.beer < 200 ∨ g < -16384 ∨
                16383 < g then answer .range [] s
            else answer .ok (bytes16 (BitVec.ofInt 16 g)) { s with
              config := some { c with lines := c.lines.set i { c.lines[i] with g := g } } })))

/-! ## Journal, sources, link and cleaning commands -/

/-- TAKE-RECORD (R77, R78): an empty journal is answered EMPTY; otherwise the oldest record leaves and is
returned in the layout of R197 (recordBytes) with the counts, and the arbiter serves the pending start list
(ServiceWalk says how). That the counts are those after the walk is the model's reading (log 32). -/
def Obligations.TakeRecordCommand : Prop :=
  ∀ s : State, s.accepts →
    (s.station = .unconfigured → exec .takeRecord s = .next (answer .badState [] s)) ∧
    (s.station ≠ .unconfigured → s.journal.records = [] →
      exec .takeRecord s = .next (answer .empty
        ([0, BitVec.ofNat 8 s.journal.reserved] ++ bytes32 s.seconds) s)) ∧
    (∀ r rest, s.station ≠ .unconfigured → s.journal.records = r :: rest →
      let taken := { s with journal := { s.journal with records := rest } }
      let t := serve taken
      exec .takeRecord s = .next (answer .ok
          ([BitVec.ofNat 8 rest.length, BitVec.ofNat 8 t.journal.reserved] ++ bytes32 s.seconds ++
            recordBytes r) t) ∧
      t.journal.records = rest ∧ t.journal.seq = s.journal.seq ∧
      Only [.lines, .starts, .pours, .journal] s t ∧ (s.starts = [] → t = taken))

/-- The service walk (R13, R14), entry by entry from the oldest, on a list with one entry a line: an entry
that can't start leaves with refusal, its line going to READY, and the walk goes on; a startable one is
held by a station hold, where the walk ends, or is admitted, and the walk goes on. So it ends with the list
empty or at a held entry, what is left keeps its order, and it writes no record. -/
def Obligations.ServiceWalk : Prop :=
  ∀ s : State, (s.starts.map StartEntry.line).Nodup →
    (s.starts = [] → serve s = s) ∧
    (∀ e rest, s.starts = e :: rest →
      if Unstartable s e.line then ∃ u, EntryRefused e.line .ready s u ∧ u.starts = rest ∧
        serve s = serve u
      else if Held s then serve s = s
      else ∃ u, Admitted e.line (admittedBy s e.line e.kind) { s with starts := rest } u ∧
        serve s = serve u) ∧
    ((serve s).starts = [] ∨ ∃ e rest, (serve s).starts = e :: rest ∧
      ¬ Unstartable (serve s) e.line ∧ Held (serve s)) ∧
    (∃ n, (serve s).starts = s.starts.drop n) ∧
    (serve s).journal.records = s.journal.records ∧
    Only [.lines, .starts, .pours, .journal] s (serve s)

/-- SOURCE-CHANGE (R89): the tests in order; accepted, the source takes the next generation with the full
volume given, and a CHANGE frame joins the tail of the CHANGE list. -/
def Obligations.SourceChangeCommand : Prop :=
  ∀ (b : Byte) (full : BitVec 32) (s : State), s.accepts →
    (s.station = .unconfigured → exec (.sourceChange b full) s = .next (answer .badState [] s)) ∧
    (s.station ≠ .unconfigured → 16 ≤ b.toNat →
      exec (.sourceChange b full) s = .next (answer .badArg [] s)) ∧
    ∀ x : SourceNo, s.station ≠ .unconfigured → b.toNat = x.val →
      (s.link.mute = true → exec (.sourceChange b full) s = .next (answer .muted [] s)) ∧
      (s.link.mute = false → s.link.changes.length ≥ 4 →
        exec (.sourceChange b full) s = .next (answer .queueFull [] s)) ∧
      (s.link.mute = false → s.link.changes.length < 4 →
        ∃ t, exec (.sourceChange b full) s = .next (answer .ok [(s.source x).gen + 1] t) ∧
          TakesGeneration x ((s.source x).gen + 1) full.toNat s t ∧
          t.link = { s.link with
            changes := s.link.changes ++ [{ source := b, gen := (s.source x).gen + 1, full }],
            current := match s.link.current with
              | some c => some c
              | none => some ⟨.change, 0⟩ } ∧
          Only [.lines, .sources, .attn, .link] s t)

/-- CLEAR-MUTE, by the table of R119: MUTE is cleared and a STATUS is requested, which becomes current at
once when nothing else is; the counters and the attention set stay. -/
def Obligations.ClearMuteCommand : Prop :=
  ∀ s : State, s.accepts →
    (s.station = .unconfigured ∨ s.link.mute = false →
      exec .clearMute s = .next (answer .badState [] s)) ∧
    (s.station ≠ .unconfigured → s.link.mute = true → LinkOk s →
      exec .clearMute s = .next (answer .ok [] { s with link := { s.link with
        mute := false, changes := [], statusReq := true, current := some ⟨.status, 0⟩ } }))

/-- CLEAN-START (R174, R175): the tests in order; accepted, the run takes the next number, keeps its entry,
lines and start, reserves 1 + n slots, reserves or marks its lines, and stands in PREPARING while one of
them is still pouring, else in CLAIMING with a STATUS requested. The sequencer's other fields stand. -/
def Obligations.CleanStartCommand : Prop :=
  ∀ (entry lines : Byte) (s : State), s.accepts →
    let n := (linesOf lines).length
    let badArg := (entry ≠ 1 ∧ entry ≠ 2) ∨ lines = 0 ∨ ∃ i ∈ linesOf lines, s.configured i = false
    (s.station ≠ .running ∨ s.clean.runState ≠ .idle →
      exec (.cleanStart entry lines) s = .next (answer .badState [] s)) ∧
    (s.station = .running → s.clean.runState = .idle → s.link.mute = true →
      exec (.cleanStart entry lines) s = .next (answer .muted [] s)) ∧
    (s.station = .running → s.clean.runState = .idle → s.link.mute = false → badArg →
      exec (.cleanStart entry lines) s = .next (answer .badArg [] s)) ∧
    (s.station = .running → s.clean.runState = .idle → s.link.mute = false → ¬ badArg →
      s.journal.records.length + s.journal.reserved + (1 + n) > 64 →
      exec (.cleanStart entry lines) s = .next (answer .journalFull [] s)) ∧
    (s.station = .running → s.clean.runState = .idle → s.link.mute = false → ¬ badArg →
      s.journal.records.length + s.journal.reserved + (1 + n) ≤ 64 →
      ∃ t, exec (.cleanStart entry lines) s = .next (answer .ok
          (bytes16 t.clean.runNumber ++ [if t.clean.runState = .preparing then 1 else 2]) t) ∧
        t.clean.runNumber = s.clean.runNumber + 1 ∧
        t.clean.job = some { entry := entry.toNat, lines, start := s.seconds } ∧
        t.clean.slots = 1 + n ∧
        t.journal = { s.journal with reserved := s.journal.reserved + (1 + n) } ∧
        t.clean.runState = (if ∃ i ∈ linesOf lines,
            (s.line i).state = .pouring ∨ (s.line i).state = .afterRun
          then .preparing else .claiming) ∧
        t.clean = { s.clean with
          runNumber := t.clean.runNumber, job := t.clean.job, slots := 1 + n,
          runState := t.clean.runState,
          age := if t.clean.runState = .claiming then 0 else s.clean.age,
          ahead := if t.clean.runState = .claiming then 0 else s.clean.ahead } ∧
        (t.clean.runState = .claiming → t.clean.age = 0 ∧ t.clean.ahead = 0 ∧
          StatusRequested s t) ∧
        (t.clean.runState = .preparing → t.link = s.link) ∧
        t.starts = s.starts.filter (fun e =>
          !((linesOf lines).contains e.line && (s.line e.line).state == .waiting)) ∧
        (∀ i : LineNo, (t.line i).sansLamp =
          (if i ∈ linesOf lines then reservedLine s.now (s.line i) else s.line i).sansLamp) ∧
        Only [.lines, .starts, .journal, .link, .clean] s t)

/-- CLEAN-ABORT (R183, R185) of a run that has not reached RUNNING: the answer carries the run number and
the run state it ended from; a CLEAN record without last step is written, the slots are returned and the
list is served, marks are withdrawn and RESERVED lines released to READY. The CLEAN record's duration
modulo 2^32 is the model's reading (log 20). -/
def Obligations.CleanAbortCommand : Prop :=
  ∀ s : State, s.accepts →
    (s.station = .unconfigured ∨ s.clean.runState = .idle →
      exec .cleanAbort s = .next (answer .badState [] s)) ∧
    (∀ j, s.station = .running → StationOk s → s.clean.job = some j →
      s.clean.runState = .preparing ∨ s.clean.runState = .claiming →
      ∃ t, exec .cleanAbort s = .next (answer .ok
          (bytes16 s.clean.runNumber ++ [if s.clean.runState = .preparing then 1 else 2]) t) ∧
        RunWithdrawn j s t ∧
        (s.starts = [] → t.journal = runJournal s [cleanRecord s j s.journal.seq .aborted none] ∧
          (∀ i, i ∉ linesOf j.lines → t.line i = s.line i) ∧
          Only [.lines, .journal, .attn, .link, .clean] s t))

/-- The end of a run from RUNNING (R168, R170, R182, R184, R185): by CLEAN-ABORT it is ABORTED, by the run
limit FAILED, by a passed test whose next is END COMPLETED, by a limit, or a single expiry with a false
test, whose fault next is FAIL FAILED. In TESTING a flag change, a cleaning pulse or the flow timer may
reach END as well (FlagChanges, CleaningPulse). The CLEAN record's duration modulo 2^32 is the model's
reading (log 20). -/
def Obligations.RunEnd : Prop :=
  ∀ (s : State) (j : Job) (p : Progress), s.rstnLow = false → s.station = .running →
    StationOk s → s.clean.runState = .running → s.clean.job = some j → s.clean.progress = some p →
    let st := s.stepAt p.step
    let test := advanceTest st s.clean.flags
    (s.accepts → ∃ t, exec .cleanAbort s =
        .next (answer .ok (bytes16 s.clean.runNumber ++ [3]) t) ∧ RunEnds .aborted j p s t) ∧
    (∃ t, exec .runLimitExpiry s = .next t ∧ RunEnds .failed j p s t) ∧
    (p.phase = .dwell → test = true → st.next = .leave →
      ∃ t, exec .dwellExpiry s = .next t ∧ RunEnds .completed j p s t) ∧
    (p.phase = .dwell → st.limit = st.dwell → test = false → st.faultNext = .leave →
      ∃ t, exec .dwellExpiry s = .next t ∧ RunEnds .failed j p s t) ∧
    (p.phase = .testing → st.limit ≠ 0 → st.faultNext = .leave →
      ∃ t, exec .limitExpiry s = .next t ∧ RunEnds .failed j p s t)

/-! ## Tower events -/

/-- Admission (R8 to R10, R52, R59): a press on a READY line whose source is not EMPTY, with no station
hold, opens the valve and starts the pour that the line's mode and the key give; the head order leaves
the queue of an ORDERED line. The level pressed is taken (R4). -/
def Obligations.Admission : Prop :=
  ∀ (s : State) (i : LineNo), s.rstnLow = false → s.station = .running → s.configured i = true →
    (s.line i).state = .ready → (s.source (s.lineCfg i).source).empty = false → ¬ Held s →
    s.starts = [] →
    let l := s.line i
    let c := s.lineCfg i
    (c.mode = .free →
      (∃ t, exec (.handlePress i) s = .next t ∧ Admitted i
        (admittedLine s i { l with handle := .taken true } .free none none l.orders) s t) ∧
      (∃ t, exec (.keyPress i .a) s = .next t ∧ Admitted i
        (admittedLine s i { l with keyA := .taken true } .presetA none (some c.presetA) l.orders)
        s t) ∧
      (∃ t, exec (.keyPress i .b) s = .next t ∧ Admitted i
        (admittedLine s i { l with keyB := .taken true } .presetB none (some c.presetB) l.orders)
        s t)) ∧
    (c.mode = .ordered → ∀ (o : Order) (rest : List Order) (k : Key), l.orders = o :: rest →
      ∃ t, exec (.keyPress i k) s = .next t ∧ Admitted i
        (admittedLine s i (l.keyClosed k) .order (some o.tag) (some o.volume) rest) s t)

/-- Parking (R9, R11): a press that is not refused meets a station hold, or a list that is not empty. A
HANDLE request joins the tail without expiry, a key request with an expiry after HoldWait, or is refused
when HoldWait is 0. -/
def Obligations.Parking : Prop :=
  ∀ (s : State) (i : LineNo), s.rstnLow = false → s.station = .running → s.configured i = true →
    (s.line i).state = .ready → (s.source (s.lineCfg i).source).empty = false →
    Held s ∨ s.starts ≠ [] →
    ((s.lineCfg i).mode = .free →
      ∃ t, exec (.handlePress i) s = .next t ∧
        Parked i { s.line i with handle := .taken true } ⟨i, .handle, none⟩ s t) ∧
    (∀ k : Key, (s.lineCfg i).mode = .free ∨ (s.line i).orders ≠ [] →
      let closed := (s.line i).keyClosed k
      ∃ t, exec (.keyPress i k) s = .next t ∧
        if s.cfg.holdWait = 0 then Flashes i closed s t
        else Parked i closed
          ⟨i, match k with
              | .a => .keyA
              | .b => .keyB, some (s.now + s.cfg.holdWait * 500000)⟩ s t)

/-- Presses that start nothing (R4, R5, R8, R23): refused with the refuse flash on a configured line that
is OFF, RESERVED, CLEANING or LOCKED, or READY with its source EMPTY or its queue empty; without effect
on a WAITING or POURING line, in AFTER-RUN for a handle, or on an unconfigured line; and a key pressed in
AFTER-RUN is remembered, once. In every case the level is taken (R4); that it is also recorded on lines that
ignore it is the model's choice (log 24). -/
def Obligations.PressesNotAdmitted : Prop :=
  ∀ (s : State) (i : LineNo) (k : Key), s.rstnLow = false →
    let l := s.line i
    let closed := l.keyClosed k
    let held := { l with handle := .taken true }
    (closed = match k with
      | .a => { l with keyA := .taken true }
      | .b => { l with keyB := .taken true }) ∧
    (s.configured i = false → exec (.keyPress i k) s = .next (s.setLine i closed) ∧
      exec (.handlePress i) s = .next (s.setLine i held)) ∧
    (s.configured i = true →
      ((s.lineCfg i).mode = .ordered → exec (.handlePress i) s = .next (s.setLine i held)) ∧
      (l.state = .off ∨ l.state = .reserved ∨ l.state = .cleaning ∨ l.state = .locked ∨
          (l.state = .ready ∧ (s.source (s.lineCfg i).source).empty = true) →
        (∃ t, exec (.keyPress i k) s = .next t ∧ Flashes i closed s t) ∧
        ((s.lineCfg i).mode = .free → ∃ t, exec (.handlePress i) s = .next t ∧
          Flashes i held s t)) ∧
      (l.state = .ready → (s.lineCfg i).mode = .ordered → l.orders = [] →
        ∃ t, exec (.keyPress i k) s = .next t ∧ Flashes i closed s t) ∧
      (l.state = .waiting ∨ l.state = .pouring →
        exec (.keyPress i k) s = .next (s.setLine i closed)) ∧
      (l.state = .waiting ∨ l.state = .pouring ∨ l.state = .afterRun →
        exec (.handlePress i) s = .next (s.setLine i held)) ∧
      (l.state = .afterRun → exec (.keyPress i k) s = .next (s.setLine i
        { closed with remembered := match l.remembered with
            | none => some k
            | some r => some r })))

/-- A handle release (R5, R12) ends a FREE pour RELEASE and takes a HANDLE entry off the list without
flash; on an ORDERED line, for any other pour, for a WAITING line with a key entry, and in any other line
state it has no effect. In every case the level is taken (R4), also on a line that ignores it (the model's
choice, log 24); the duration of the pour rounded down is the model's choice (log 10). The expiry of a key
entry removes it with refusal. -/
def Obligations.ReleaseAndExpiry : Prop :=
  ∀ (s : State) (i : LineNo), s.rstnLow = false →
    let l := s.line i
    let open_ := { l with handle := .taken false }
    (s.configured i = true → (s.lineCfg i).mode = .free →
      (∀ p, l.state = .pouring → l.pour = some p → p.mode = .free →
        ∃ t, exec (.handleRelease i) s = .next t ∧
          LineBecomes t i (endedLine s.now .release open_ p) ∧ OtherLines i s t ∧
          Only [.lines] s t) ∧
      (∀ p, l.state = .pouring → l.pour = some p → p.mode ≠ .free →
        exec (.handleRelease i) s = .next (s.setLine i open_)) ∧
      (l.state = .waiting → (∃ e ∈ s.starts, e.line = i ∧ e.kind = .handle) →
        ∃ t, exec (.handleRelease i) s = .next t ∧
          LineBecomes t i { open_ with state := .ready } ∧ OtherLines i s t ∧
          t.starts = s.starts.filter (fun e => e.line != i) ∧ Only [.lines, .starts] s t) ∧
      (l.state = .waiting → (∀ e ∈ s.starts, e.line = i → e.kind ≠ .handle) →
        exec (.handleRelease i) s = .next (s.setLine i open_)) ∧
      (l.state ≠ .pouring → l.state ≠ .waiting →
        exec (.handleRelease i) s = .next (s.setLine i open_))) ∧
    (s.configured i = false ∨ (s.lineCfg i).mode = .ordered →
      exec (.handleRelease i) s = .next (s.setLine i open_)) ∧
    ((∃ e ∈ s.starts, e.line = i ∧ e.expiry.isSome = true) →
      ∃ t, exec (.keyEntryExpiry i) s = .next t ∧ EntryRefused i .ready s t)

/-- The timers of the block. Those of the lines (R6, R7, R18, R19): the end of a refuse flash shows the
pattern of the line's state, a valve at full drive goes to one-third duty, a blinking lamp changes level,
and the no-flow and pour timers end a pour that is POURING and do nothing in any other line state. Those of
the station (R65, R145): station seconds rises by 1, wrapping; a glycol frame latches the grant held and
drives GLY on unless it is 0; and the end of the on-time turns GLY off. The duration of a pour rounded down
is the model's choice (log 10). -/
def Obligations.BlockTimers : Prop :=
  ∀ (s : State) (i : LineNo), s.rstnLow = false →
    ((s.line i).flashFrom.isSome = true → ∃ t, exec (.refuseFlashEnd i) s = .next t ∧
      LineBecomes t i { s.line i with flashFrom := none } ∧ OtherLines i s t ∧
      Only [.lines] s t) ∧
    (∀ since, (s.line i).valve = .full since →
      exec (.valveHoldDrive i) s = .next (s.setLine i { s.line i with valve := .hold }) ∧
      vlvPin (s.setLine i { s.line i with valve := .hold }) i = .third) ∧
    ((s.line i).lamp = .slow ∨ (s.line i).lamp = .fast ∨ (s.line i).lamp = .alternating →
      exec (.lampBlinkPhase i) s = .next (s.setLine i
        { s.line i with lampOn := !(s.line i).lampOn, lampFrom := s.now })) ∧
    (∀ p, (s.line i).state = .pouring → (s.line i).pour = some p →
      (∃ t, exec (.noFlowExpiry i) s = .next t ∧ PourEnds i .noFlow p s t) ∧
      (∃ t, exec (.pourTimerExpiry i) s = .next t ∧ PourEnds i .timeLimit p s t)) ∧
    ((s.line i).state ≠ .pouring →
      exec (.noFlowExpiry i) s = .next s ∧ exec (.pourTimerExpiry i) s = .next s) ∧
    (s.station ≠ .unconfigured →
      exec .stationSecondsTick s =
        .next { s with seconds := s.seconds + 1, secondFrom := some s.now } ∧
      exec .glycolFrameStart s = .next { s with cool := { s.cool with
        latched := s.cool.grant, frameFrom := some s.now, gly := decide (0 < s.cool.grant) } }) ∧
    exec .glycolOnTimeEnd s = .next { s with cool := { s.cool with gly := false } }

/-! ## Meter pulses and the life of a pour -/

/-- A pour pulse (R17, R20, R31, R34 to R37). The high level is taken on MTRn. Its interval is measured in
ticks of 50 µs from the last pulse or the valve opening (whole ticks between the two moments: the model's
reading, log 26); it is foam when it is not the first pulse, Fint is not 0 and the interval is below
Fint; at 65535 total pulses nothing more is counted. While POURING it restarts the no-flow timer and ends
the pour at the first of TARGET, FOAM-OUT and OVERRANGE that it meets, FOAM-OUT setting the source EMPTY:
the entries of its lines leave the list with refusal, those of other sources stay (R12, R86).
The duration of the pour rounded down is the model's choice (log 10). -/
def Obligations.PourPulse : Prop :=
  ∀ (s : State) (i : LineNo) (p : PourCtx), s.rstnLow = false → s.configured i = true →
    (s.line i).pour = some p →
    let c := s.lineCfg i
    let l : Line := { s.line i with meter := .taken true }
    let interval := match l.intervalFrom with
      | some since => min ((s.now - since) / 25) 65535
      | none => 65535
    let foam := p.total ≠ 0 ∧ c.fint ≠ 0 ∧ interval < c.fint
    let counted : PourCtx := if 65535 ≤ p.total then p
      else { p with total := p.total + 1, foam := if foam then p.foam + 1 else p.foam }
    let consec := if 65535 ≤ p.total then l.consecFoam
      else if foam then (if l.consecFoam < 255 then l.consecFoam + 1 else l.consecFoam) else 0
    let after := fun q : PourCtx =>
      { l with pour := some q, consecFoam := consec, intervalFrom := some s.now }
    (l.state = .afterRun →
      exec (.meterPulse i) s = .next (s.setLine i (after counted))) ∧
    (l.state = .pouring →
      let q := { counted with noFlowFrom := s.now }
      let s1 := s.setLine i (after q)
      let target := ∃ n, q.pulseTarget = some n ∧ n ≤ q.total - q.foam
      (target → ∃ t, exec (.meterPulse i) s = .next t ∧ PourEnds i .target q s1 t) ∧
      (¬ target → c.foamRun ≤ consec → StartsOk s →
        ∃ t, exec (.meterPulse i) s = .next t ∧
          (t.line i).sansLamp = (endedLine s.now .foamOut (after q) q).sansLamp ∧
          t.source c.source = { s.source c.source with empty := true } ∧
          OtherSources c.source s t ∧
          ((s.source c.source).empty = true → PourEnds i .foamOut q s1 t) ∧
          ((s.source c.source).empty = false → t.attn = s.attn.set .sourceEmpty) ∧
          ((s.source c.source).empty = false → s.station ≠ .unconfigured →
            StatusRequested s t) ∧
          ((s.source c.source).empty = false →
            t.starts = s.starts.filter fun e => (s.lineCfg e.line).source != c.source) ∧
          (∀ j, j ≠ i →
            if (s.source c.source).empty = false ∧ (s.lineCfg j).source = c.source ∧
                j ∈ s.starts.map StartEntry.line then
              LineBecomes t j { s.line j with state := .ready, flashFrom := some s.now }
            else (t.line j).sansLamp = (s.line j).sansLamp) ∧
          Only [.lines, .starts, .link, .attn, .sources] s t) ∧
      (¬ target → consec < c.foamRun → 65535 ≤ q.total →
        ∃ t, exec (.meterPulse i) s = .next t ∧ PourEnds i .overrange q s1 t) ∧
      (¬ target → consec < c.foamRun → q.total < 65535 → exec (.meterPulse i) s = .next s1))

/-- A pulse outside a pour (R24, R31, R32, R33): ignored on an unconfigured line, but for the level taken on
MTRn; a creep pulse on a line that is OFF, READY, WAITING, RESERVED or LOCKED; reaching LeakLimit on a READY
or WAITING line it locks the line LEAK, a WAITING line losing its entry with refusal. -/
def Obligations.CreepPulse : Prop :=
  ∀ (s : State) (i : LineNo), s.rstnLow = false →
    let l : Line := { s.line i with meter := .taken true }
    (s.configured i = false → exec (.meterPulse i) s = .next (s.setLine i l)) ∧
    (s.configured i = true →
      let n := if l.creep < 65535 then l.creep + 1 else l.creep
      let limit := (s.lineCfg i).leakLimit
      let crept := s.setLine i { l with creep := n }
      (l.state = .off ∨ l.state = .reserved ∨ l.state = .locked →
        exec (.meterPulse i) s = .next crept) ∧
      (l.state = .ready ∨ l.state = .waiting → limit = 0 ∨ n < limit →
        exec (.meterPulse i) s = .next crept) ∧
      (l.state = .ready → limit ≠ 0 → limit ≤ n → ∃ t, exec (.meterPulse i) s = .next t ∧
        LineBecomes t i { l with creep := n, lock := .leak, state := .locked } ∧
        OtherLines i s t ∧ t.attn = s.attn.set .lineLocked ∧ Only [.lines, .attn] s t) ∧
      (l.state = .waiting → limit ≠ 0 → limit ≤ n → ∃ t, exec (.meterPulse i) s = .next t ∧
        LineBecomes t i
          { l with creep := n, lock := .leak, state := .locked, flashFrom := some s.now } ∧
        OtherLines i s t ∧ t.starts = s.starts.filter (fun e => e.line != i) ∧
        t.attn = s.attn.set .lineLocked ∧ Only [.lines, .starts, .attn] s t))

/-- A cleaning pulse (R159, R160, R169): the line's step count rises, VOLUME is set when every selected
line has reached the step pulses, FLOW is set and its timer restarts, and a BEER-OUT step with CLEAR clear
counts it as beer. In DWELL, and while the test stays false, nothing else happens; in TESTING a flag that
it set and a true test take the step's next, which may be END (R165, R168). The duration modulo 2^32 of the
CLEAN record that END writes is the model's reading (log 20). -/
def Obligations.CleaningPulse : Prop :=
  ∀ (s : State) (i : LineNo) (p : Progress), s.rstnLow = false → s.configured i = true →
    (s.line i).state = .cleaning → s.clean.runState = .running → s.clean.progress = some p →
    let c := s.clean
    let st := s.stepAt p.step
    let counts := c.stepCounts.set i
      (if c.stepCounts[i] < 65535 then c.stepCounts[i] + 1 else c.stepCounts[i])
    let reached := decide (∀ j ∈ s.selected, st.pulses ≤ counts[j])
    let flags := { c.flags with flow := true, volume := c.flags.volume || reached }
    let u := { s.setLine i { s.line i with meter := .taken true } with clean := { c with
      stepCounts := counts, flags, flowFrom := some s.now,
      beerOut := if c.out.beerOut = true ∧ c.flags.clear = false then c.beerOut.set i
          (if c.beerOut[i] < 65535 then c.beerOut[i] + 1 else c.beerOut[i])
        else c.beerOut } }
    (p.phase = .dwell ∨ advanceTest st flags = false ∨ flags = c.flags →
      exec (.meterPulse i) s = .next u) ∧
    (p.phase = .testing → advanceTest st flags = true → flags ≠ c.flags → StationOk s →
      ∃ t, exec (.meterPulse i) s = .next t ∧ NextTaken p u t)

/-- The completion of a pour (R22, R40, R42, R46, R71, R72, R76, R82, R84), step by step: the POUR record is
written, which may set JOURNAL-LEVEL; own cumulative grows by the volume and the creep volume, with the low
test; the last-pour record is replaced and the count of pours falls. An unmarked line then goes to OFF,
LOCKED or READY as step 6 gives, a FOAM-OUT lock setting LINE-LOCKED, and a marked one to RESERVED, the run
leaving PREPARING when no selected line still pours (R176). The list is then served, and the remembered key
presented last (R23). V is 0 without beer pulses (R41; the model's choice against R40, log 36). -/
def Obligations.Completion : Prop :=
  ∀ (s : State) (i : LineNo) (p : PourCtx) (r : EndReason), s.rstnLow = false →
    (s.line i).state = .afterRun → (s.line i).pour = some p → p.endReason = some r →
    let l := s.line i
    let x := (s.lineCfg i).source
    let beer := p.total - p.foam
    let v := if beer = 0 then 0
      else ((4 * (beer : Int) + p.oq).toNat * (65536 + p.g).toNat * p.k + 131072) / 262144
    let cv := ((4 * p.creep) * (65536 + p.g).toNat * p.k + 131072) / 262144
    let creep := if p.creep = 0 then none else some (p.creep, (cv + 50) / 100)
    let locks := r = .foamOut ∧ p.foamWithdrawn = false ∧ l.cleanMark = false
    let last : LastPour := { endReason := r, total := p.total, foam := p.foam, beer, k := p.k, g := p.g,
                             oq := p.oq, v, vr := (v + 50) / 100 }
    let reported := s.station = .running ∧ l.cleanMark = true
    let prepared := reported ∧ s.clean.runState = .preparing ∧ ∀ j ∈ s.selected, j ≠ i →
      (s.line j).state ≠ .pouring ∧ (s.line j).state ≠ .afterRun
    ∃ u t, exec (.pourCompletion i) s = .next t ∧
      Only [.lines, .pours, .journal, .sources, .attn, .link, .clean] s u ∧
      u.journal = {
        records := s.journal.records ++ [.pour
          { seq := s.journal.seq, start := p.start, duration := p.duration.getD 0, line := i,
            source := x, gen := (s.source x).gen, mode := p.mode, tag := p.tag, target := p.target,
            total := p.total, foam := p.foam, volume := (v + 50) / 100, endReason := r, creep }],
        reserved := s.journal.reserved - 1, seq := s.journal.seq + 1 } ∧
      u.pours = s.pours - 1 ∧ OtherSources x s u ∧ OtherLines i s u ∧
      u.source x = { s.source x with
        own := min ((s.source x).own + ((v + 50) / 100 +
          (if p.creep = 0 then 0 else (cv + 50) / 100))) 4294967295,
        low := (u.source x).low } ∧
      ((u.source x).low = true ↔ (s.source x).low = true ∨ ((s.source x).full ≠ 0 ∧
        (s.source x).full - u.drawn x ≤ s.cfg.lowThreshold[x])) ∧
      u.attn = { attnWritten s u with lineLocked := s.attn.lineLocked || decide locks } ∧
      LineBecomes u i { l with
        state := if s.station ≠ .running then .off else if l.cleanMark then .reserved
          else if locks then .locked else .ready,
        lock := if locks then .foamOut else l.lock, pour := none, consecFoam := 0,
        intervalFrom := none, afterRunFrom := none, cleanMark := false, lastPour := some last } ∧
      (prepared → u.clean = { s.clean with runState := .claiming, age := 0, ahead := 0 } ∧
        (s.station ≠ .unconfigured → StatusRequested s u)) ∧
      (¬ prepared → u.clean = s.clean ∧ u.link = s.link) ∧
      match ((serve u).line i).remembered with
      | none => t = serve u
      | some k => KeyPresented i k
          ((serve u).setLine i { (serve u).line i with remembered := none }) t

/-! ## The cellar link -/

/-- The receive assembly (R101, R104 to R107, R114, R117): a character start restarts the idle time, which
counts from the end of that character; a delimiter taken in HUNT begins a frame, any other character and any
character with an error raise their counter and lead to DISCARD; in ASSEMBLY each character is judged at its
position, the kind, the station number, the payload length, the CRC and the content, and the last of a frame
that passes is the frame's arrival; a frame discarded raises the counter of the check that failed; an idle
time past 22 bit-times leads DISCARD to HUNT and discards a frame in ASSEMBLY as a format error; in DISCARD
everything else is ignored, a frame that arrives too. A character read back while sending lets the frame go
on, the next character restarting the idle time, ends it as a success when it was the last, or is a
collision when it differs or has an error; the idle time never counts before the end of a character that has
started. That CHARACTER_TAKEN does the whole event of an arrival, a collision or a success, and that the
frame rows are taken in HUNT and ASSEMBLY only, is the model's choice (log 16), and so is it that a frame
whose CRC matches and whose content fails leads to DISCARD, where R104 has rows for both DISCARD and HUNT
(log 39); that an event without a frame to act on changes nothing is its reading (log 6). -/
def Obligations.ReceiveAssembly : Prop :=
  ∀ (s : State), s.rstnLow = false →
    let up := fun n : Nat => if n < 65535 then n + 1 else n
    let rx := s.link.rx
    let goes := fun r : RxState => { s with link := { s.link with rx := r } }
    let formatError := { s with link := { s.link with
      rx := .discard, formatErr := up s.link.formatErr } }
    (rx ≠ .off → exec .characterStart s =
      .next { s with link := { s.link with idleFrom := some (s.now + 44) } }) ∧
    (rx = .hunt → exec (.characterTaken 0xA5 false) s = .next (goes (.assembly []))) ∧
    (∀ v : Byte, rx = .hunt → v ≠ 0xA5 → exec (.characterTaken v false) s = .next formatError) ∧
    (∀ v : Byte, rx = .hunt ∨ (∃ cs, rx = .assembly cs) → exec (.characterTaken v true) s =
      .next { s with link := { s.link with rx := .discard, charErr := up s.link.charErr } }) ∧
    (∀ (v : Byte) (err : Bool), rx = .discard ∨ rx = .off →
      exec (.characterTaken v err) s = .next s) ∧
    (∀ v : Byte, rx = .assembly [] → exec (.characterTaken v false) s =
      .next (if v = 0x53 ∨ v = 0x43 then goes (.assembly [v]) else formatError)) ∧
    (∀ kind v : Byte, rx = .assembly [kind] → exec (.characterTaken v false) s =
      .next (if 1 ≤ v.toNat ∧ v.toNat ≤ 32 then goes (.assembly [kind, v]) else formatError)) ∧
    (∀ kind number v : Byte, rx = .assembly [kind, number] → exec (.characterTaken v false) s =
      .next (if (kind = 0x53 ∧ v.toNat ∈ [5, 16, 27, 38, 49, 60, 71, 82, 93]) ∨
          (kind ≠ 0x53 ∧ v.toNat = 6)
        then goes (.assembly [kind, number, v]) else formatError)) ∧
    (∀ (kind number len v : Byte) (rest : List Byte),
      rx = .assembly (kind :: number :: len :: rest) → rest.length < len.toNat + 1 →
      exec (.characterTaken v false) s =
        .next (goes (.assembly (kind :: number :: len :: (rest ++ [v]))))) ∧
    (∀ (kind number len high v : Byte) (payload : List Byte),
      rx = .assembly (kind :: number :: len :: (payload ++ [high])) → payload.length = len.toNat →
      (kind = 0x53 ∧ 5 ≤ len.toNat) ∨ (kind = 0x43 ∧ len.toNat = 6) →
      let crc := crc16 (kind :: number :: len :: payload)
      let contentOk := kind = 0x43 ∨ ((payload.getD 0 0).toNat ≤ 1 ∧ (payload.getD 2 0).toNat ≤ 2 ∧
        (payload.getD 4 0).toNat ≤ 8 ∧ len.toNat = 5 + 11 * (payload.getD 4 0).toNat)
      (be16 high v ≠ crc → exec (.characterTaken v false) s = .next { s with link := { s.link with
        rx := .discard, crcErr := up s.link.crcErr } }) ∧
      (be16 high v = crc → ¬ contentOk → exec (.characterTaken v false) s = .next formatError) ∧
      (be16 high v = crc → contentOk → ∃ f, FrameSpelled kind number payload f ∧
        exec (.characterTaken v false) s = exec (.validFrameArrival f) s)) ∧
    (∀ (f : TxFrame) (v : Byte) (err : Bool), rx = .readback → s.link.tx = some f →
      exec (.characterTaken v err) s =
        if err = true ∨ f.chars[f.sent]? ≠ some v then exec .collision s
        else if f.sent + 1 = f.chars.length then exec .transmitSuccess s
        else .next { s with link := { s.link with
          tx := some { f with sent := f.sent + 1 },
          idleFrom := some (max (s.link.idleFrom.getD 0) (f.began + 44 * (f.sent + 2))) } }) ∧
    (rx = .hunt ∨ (∃ cs, rx = .assembly cs) → ∀ c : RxCheck,
      exec (.frameDiscarded c) s = .next { s with link := { s.link with
        charErr := if c = .character then up s.link.charErr else s.link.charErr,
        crcErr := if c = .crc then up s.link.crcErr else s.link.crcErr,
        formatErr := if c ≠ .character ∧ c ≠ .crc then up s.link.formatErr else s.link.formatErr,
        rx := if c = .gap then .hunt else .discard } }) ∧
    (rx = .discard ∨ rx = .readback ∨ rx = .off → ∀ (c : RxCheck) (f : LinkFrame),
      exec (.frameDiscarded c) s = .next s ∧ exec (.validFrameArrival f) s = .next s) ∧
    (rx = .discard → exec .idleGapExpiry s = .next (goes .hunt)) ∧
    (∀ cs, rx = .assembly cs → exec .idleGapExpiry s = .next { s with link := { s.link with
      rx := .hunt, formatErr := up s.link.formatErr } }) ∧
    (rx = .hunt ∨ rx = .readback ∨ rx = .off → exec .idleGapExpiry s = .next s)

/-- A valid frame that bears own station number (R107, R118): the station enters MUTE, its queue is
flushed with each CHANGE counted as a drop, and the frame is not handed on; already in MUTE, only the
attention flag is set. -/
def Obligations.OwnNumberMutes : Prop :=
  ∀ (f : LinkFrame) (s : State), s.rstnLow = false → f.wf = true → f.station.toNat = s.cfg.station →
    s.link.rx.listening = true →
    (s.link.mute = true → exec (.validFrameArrival f) s = .next { s with
      attn := s.attn.set .mute, link := { s.link with rx := .hunt } }) ∧
    (s.link.mute = false → exec (.validFrameArrival f) s = .next { s with
      attn := (if s.link.changes = [] then s.attn else s.attn.set .linkDrop).set .mute,
      link := { s.link with
        rx := .hunt, mute := true, statusReq := false, changes := [], current := none,
        drops := min (s.link.drops + s.link.changes.length) 65535 } })

/-- A valid STATUS of a peer (R125): its record is created or replaced whole, FRESH, with time since last
STATUS from 0, and no other record changes; the assembly goes to HUNT; with no entries stored or carried
nothing else does. Last, a run in CLAIMING evaluates its claim (R178). -/
def Obligations.PeerStatusStored : Prop :=
  ∀ (station : Byte) (b : StatusBody) (n : Fin 32) (s : State), s.rstnLow = false →
    b.entries.length ≤ 8 → station.toNat = n.val + 1 → station.toNat ≠ s.cfg.station →
    s.link.rx.listening = true →
    ∃ u t, exec (.validFrameArrival ⟨station, .status b⟩) s = .next t ∧
      u.peer n = some { fresh := true, lastAt := s.now, body := b } ∧
      (∀ m, m ≠ n → u.peer m = s.peer m) ∧ u.link.rx = .hunt ∧
      Only [.lines, .starts, .sources, .attn, .link, .peers] s u ∧
      (b.entries = [] → (∀ p, s.peer n = some p → p.body.entries = []) →
        Only [.peers, .link] s u ∧ u.link = { s.link with rx := .hunt }) ∧
      t.peers = u.peers ∧ t.link.rx = .hunt ∧
      (StationOk s ∨ s.clean.runState ≠ .claiming → ClaimEvaluated u t)

/-- What a valid STATUS of a peer makes of the Source View (R90, R92, R93, R94), by the first entry for each
source in the list that the record held and in the new one: a newer generation is adopted; otherwise a
stored cumulative of the view's generation that the new list does not carry on is added to carry; and an
entry of the view's generation gives a full volume not yet known and sets EMPTY. LOW is cleared by an
adoption alone, and set by the low test that ends the processing, or that of an adoption (R84, R90). A
source set EMPTY has the effects of R86: its entries leave the list with refusal, SOURCE-EMPTY is set, a
STATUS is requested; and a line whose source is adopted has its foam lock lifted (R25). All this stands
before the claim evaluation (PeerStatusStored), which touches no source. -/
def Obligations.EntriesApplied : Prop :=
  ∀ (station : Byte) (b : StatusBody) (n : Fin 32) (s : State), s.rstnLow = false →
    b.entries.length ≤ 8 → station.toNat = n.val + 1 → station.toNat ≠ s.cfg.station →
    s.link.rx.listening = true → s.station ≠ .unconfigured →
    let old := match s.peer n with
      | some p => p.body.entries
      | none => []
    let sourceOf := fun i : LineNo => (s.lineCfg i).source
    let hunting := { s with link := { s.link with rx := .hunt } }
    let emptied := fun i : LineNo => empties s b.entries (sourceOf i)
    ∃ u t, exec (.validFrameArrival ⟨station, .status b⟩) s = .next t ∧ t.sources = u.sources ∧
      (s.clean.runState ≠ .claiming → t = u) ∧
      Only [.lines, .starts, .sources, .attn, .link, .peers] s u ∧
      (∀ x : SourceNo,
        let r := s.source x
        let stored := match listed old x with
          | some e => if e.gen = r.gen then some e.cum.toNat else none
          | none => none
        let carry := fun n : Nat => if stored = none then r.carry else min (r.carry + n) 4294967295
        let short := (u.source x).full ≠ 0 ∧
          (u.source x).full - u.drawn x ≤ s.cfg.lowThreshold[x]
        let lowKept := (u.source x).low = true ↔ r.low = true ∨ short
        match listed b.entries x with
        | none => u.source x = { r with carry := carry (stored.getD 0), low := (u.source x).low } ∧
            (listed old x = none → u.source x = r) ∧ (listed old x ≠ none → lowKept)
        | some e =>
          let d := (e.gen.toNat + 256 - r.gen.toNat) % 256
          (1 ≤ d → d ≤ 127 →
            u.source x = { gen := e.gen, full := e.full.toNat, own := 0, carry := 0,
                           empty := e.empty, low := (u.source x).low } ∧
            ((u.source x).low = true ↔ e.full.toNat ≠ 0 ∧
              (e.full.toNat - u.drawn x ≤ s.cfg.lowThreshold[x] ∨
                e.full.toNat - (s.setSource x { r with gen := e.gen }).peerDraw x ≤
                  s.cfg.lowThreshold[x]))) ∧
          (128 ≤ d → u.source x = { r with carry := carry (stored.getD 0), low := (u.source x).low } ∧
            lowKept) ∧
          (d = 0 → lowKept ∧ u.source x =
            { r with
              carry := carry (if e.cum.toNat < stored.getD 0 then stored.getD 0 else 0),
              full := if r.full = 0 then e.full.toNat else r.full,
              empty := r.empty || e.empty, low := (u.source x).low })) ∧
      u.starts = s.starts.filter (fun e => !emptied e.line) ∧
      (∀ i : LineNo, (u.line i).sansLamp =
        (let lifted := if s.configured i && adopts s b.entries (sourceOf i) then
            liftedLine (s.line i) else s.line i
        if emptied i && s.starts.any (fun e => e.line == i) then
          ({ lifted with state := .ready, flashFrom := some s.now } : Line)
        else lifted).sansLamp) ∧
      u.attn = { s.attn with
        sourceEmpty := s.attn.sourceEmpty || allSources.any (empties s b.entries),
        sourceLow := s.attn.sourceLow || allSources.any fun x => (u.source x).low &&
          (!(s.source x).low || adopts s b.entries x) } ∧
      (if allSources.any (empties s b.entries) then StatusRequested hunting u
        else u.link = hunting.link)

/-- A valid CHANGE of a peer (R91): an older generation, or a source above 15, changes nothing but the
receive assembly; an equal one replaces the full volume and makes the low test; a newer one is adopted
with EMPTY clear. The assembly goes to HUNT in every case. -/
def Obligations.ChangeFrame : Prop :=
  ∀ (station : Byte) (b : ChangeBody) (s : State), s.rstnLow = false → stationInRange station = true →
    station.toNat ≠ s.cfg.station → s.link.rx.listening = true →
    let hunting := { s with link := { s.link with rx := .hunt } }
    (16 ≤ b.source.toNat →
      exec (.validFrameArrival ⟨station, .change b⟩) s = .next hunting) ∧
    (∀ x : SourceNo, b.source.toNat = x.val →
      let r := s.source x
      let d := (b.gen.toNat + 256 - r.gen.toNat) % 256
      (128 ≤ d → exec (.validFrameArrival ⟨station, .change b⟩) s = .next hunting) ∧
      (d = 0 → ∃ t, exec (.validFrameArrival ⟨station, .change b⟩) s = .next t ∧
        t.link = hunting.link ∧
        t.source x = { r with full := b.full.toNat, low := (t.source x).low } ∧
        ((t.source x).low = true ↔ r.low = true ∨ (b.full.toNat ≠ 0 ∧
          b.full.toNat - s.drawn x ≤ s.cfg.lowThreshold[x])) ∧
        t.attn = (if (t.source x).low && !r.low then s.attn.set .sourceLow else s.attn) ∧
        OtherSources x s t ∧ Only [.sources, .attn, .link] s t) ∧
      (1 ≤ d → d ≤ 127 → ∃ t, exec (.validFrameArrival ⟨station, .change b⟩) s = .next t ∧
        t.link = hunting.link ∧ TakesGeneration x b.gen b.full.toNat s t ∧
        Only [.lines, .sources, .attn, .link] s t))

/-- The announcement timer requests a STATUS (R111), and the wait of the current frame starts an attempt
(R96, R108, R109, R113): a STATUS is built from the state of that moment and empties its slot, a CHANGE is
the oldest of its list. The driver then puts the characters on the pair bit by bit (R100), until the end of
its last stop bit, or of the stop bit of a character that is missing (R114): start bit, eight data bits,
even parity, stop bit, each 8 µs. From the end of the stop bit of a character that has not been read back
the driver is off (R114). That a one is sent as mark is taken from the family of such links (PRESUMED, log
37). -/
def Obligations.AnnounceAndAttempt : Prop :=
  ∀ s : State, s.rstnLow = false → s.station ≠ .unconfigured →
    let number := BitVec.ofNat 8 s.cfg.station
    let status : StatusBody :=
      { running := if s.station = .running then .running else .stopped,
        demand := BitVec.ofNat 8 s.cool.demand,
        clean := match s.clean.runState with
          | .claiming => .claiming
          | .running => .active
          | _ => .none,
        age := match s.clean.runState with
          | .claiming | .running => BitVec.ofNat 8 s.clean.age
          | _ => 0,
        entries := (allSources.filter fun x => !(s.linesOn x).isEmpty).map fun x =>
          { source := BitVec.ofNat 8 x.val, gen := (s.source x).gen,
            empty := (s.source x).empty, full := BitVec.ofNat 32 (s.source x).full,
            cum := BitVec.ofNat 32 (s.source x).own } }
    let sending := fun f : LinkFrame => { s.link with
      rx := .readback, idleFrom := some (s.now + 44),
      tx := some { chars := f.chars, sent := 0, began := s.now },
      drive := some { chars := f.chars, began := s.now, ends := s.now + 44 * f.chars.length } }
    let missing := ∃ f ∈ s.link.tx, f.began + 44 * (f.sent + 1) ≤ s.now
    (∃ t, exec .announcementTimerExpiry s = .next t ∧
      StatusRequested { s with link := { s.link with announceFrom := some s.now } } t ∧
      Only [.link] s t) ∧
    (∀ k, s.link.mute = false → s.link.tx = none → s.link.current = some ⟨.status, k⟩ →
      exec .accessWaitExpiry s = .next { s with link :=
        { sending ⟨number, .status status⟩ with statusReq := false } }) ∧
    (∀ k b rest, s.link.mute = false → s.link.tx = none → s.link.current = some ⟨.change, k⟩ →
      s.link.changes = b :: rest →
      exec .accessWaitExpiry s = .next { s with link := sending ⟨number, .change b⟩ }) ∧
    (s.link.mute = true → exec .accessWaitExpiry s = .next s) ∧
    (∀ (d : Drive) (n bit : Nat) (c : Byte), s.link.drive = some d → d.chars[n]? = some c →
      bit < 11 → ¬ missing → d.began + 44 * n + 4 * bit ≤ s.now → s.now < d.began + 44 * n + 4 * (bit + 1) →
      s.now < d.ends → driverOn s = true ∧ pairPin s = some (
        if bit = 0 then false
        else if bit ≤ 8 then c.getLsbD (bit - 1)
        else if bit = 9 then decide (((List.range 8).filter c.getLsbD).length % 2 = 1)
        else true)) ∧
    (missing ∨ (∀ d, s.link.drive = some d → d.ends ≤ s.now) →
      driverOn s = false ∧ pairPin s = none)

/-- The end of an attempt (R100, R101, R110, R114, R116, R117): the driver goes on to the end of the stop
bit of the character sent, or of the last character, from which the idle time counts, or from the end of a
character that has started since and ends later (R101); and the assembly goes to DISCARD in the event itself
(the model's choice, log 22). A collision raises both counts, the eighth dropping the frame; a success lets
the next frame be chosen at once; and a CHANGE leaves its list when it is dropped, with LINK-DROP, or sent.
The success of a STATUS raises the claim age of a claiming run and evaluates its claim (R177, R178): with an
age of at least 2, fewer than CleanSlots ahead and no MUTE the run begins, and otherwise it goes on
claiming. -/
def Obligations.AttemptEnds : Prop :=
  ∀ (s : State) (f : TxFrame) (c : Current), s.rstnLow = false → s.link.tx = some f →
    s.link.current = some c →
    let up := fun n : Nat => if n < 65535 then n + 1 else n
    let left := if c.kind = .change then s.link.changes.tail else s.link.changes
    let next : Option Current := if left ≠ [] then some ⟨.change, 0⟩
      else if s.link.statusReq then some ⟨.status, 0⟩ else none
    let ended : Nat → Link := fun n => { s.link with
      tx := none, rx := .discard, idleFrom := some (max (s.link.idleFrom.getD 0) (f.began + 44 * n)),
      drive := s.link.drive.map fun d => ({ d with ends := f.began + 44 * n } : Drive) }
    (c.k + 1 ≠ 8 → exec .collision s = .next { s with link := { ended (f.sent + 1) with
      collisions := up s.link.collisions, current := some ⟨c.kind, c.k + 1⟩ } }) ∧
    (c.k + 1 = 8 → exec .collision s = .next { s with
      attn := if c.kind = .change then s.attn.set .linkDrop else s.attn,
      link := { ended (f.sent + 1) with
        collisions := up s.link.collisions, drops := up s.link.drops, changes := left,
        current := next } }) ∧
    (c.kind = .change ∨ s.clean.runState ≠ .claiming → exec .transmitSuccess s = .next { s with
      link := { ended f.chars.length with changes := left, current := next } }) ∧
    (c.kind = .status → s.clean.runState = .claiming → StationOk s →
      ∃ t, exec .transmitSuccess s = .next t ∧ ClaimEvaluated { s with
        link := { ended f.chars.length with changes := left, current := next },
        clean := { s.clean with
          age := if s.clean.age < 255 then s.clean.age + 1 else s.clean.age } } t)

/-- A FRESH peer record that has had no STATUS for 3000 ms goes STALE and keeps its other fields (R127,
R128); after an arrival that came first there is no expiry (R129). The grant is computed again from the
demand held, without that peer, and the list is served if the starved flag clears (R143); then a run in
CLAIMING evaluates its claim (R178). -/
def Obligations.PeerExpires : Prop :=
  ∀ (station : Byte) (n : Fin 32) (p : PeerRec) (s : State), s.rstnLow = false →
    station.toNat = n.val + 1 → s.peer n = some p →
    (p.fresh = false ∨ s.now < p.lastAt + 1500000 → exec (.peerExpiry station) s = .next s) ∧
    (p.fresh = true → p.lastAt + 1500000 ≤ s.now →
      let stale := s.setPeer n (some { p with fresh := false })
      let fresh := freshPeerDemand stale
      let sum := s.cool.demand + fresh
      let grant := if sum ≤ s.cfg.cap then s.cool.demand else s.cool.demand * s.cfg.cap / sum
      let u := { stale with cool := { s.cool with
        grant, starved := decide (grant < s.cool.demand), freshDemand := fresh } }
      let v := servedIf (s.cool.starved && !u.cool.starved) u
      fresh + p.body.demand.toNat = freshPeerDemand s ∧
      (∀ m, m ≠ n → stale.peer m = s.peer m) ∧
      ∃ t, exec (.peerExpiry station) s = .next t ∧ t.peers = stale.peers ∧ t.sources = s.sources ∧
        (s.clean.runState ≠ .claiming → t = v) ∧ (StationOk s → ClaimEvaluated v t))

/-! ## Cooling -/

/-- A sample, by the steps of R135: the code is stored; a good one gives T by R136, ends a fault and tests
the warm hold (R148), a faulty one keeps T and the warm hold and counts (R137, R149); the demand is that
of R140, DFault from the 41st faulty sample (R138), or 0 under cool-off (R147); the grant follows by R142.
Last, the list is served when the warm hold or the starved flag clears (R13, R144, R148). -/
def Obligations.SensorSample : Prop :=
  ∀ (code : BitVec 12) (s : State), s.rstnLow = false → s.station ≠ .unconfigured →
    let c := code.toNat
    let good := 16 ≤ c ∧ c ≤ 4079
    ∃ u t, exec (.sensorSample code) s = .next t ∧
      t = servedIf ((s.cool.warmHold && !u.cool.warmHold) || (s.cool.starved && !u.cool.starved)) u ∧
      Only [.lines, .cool, .attn] s u ∧
      (∀ i, LineBecomes u i (s.line i)) ∧
      u.attn = (if ¬ good ∧ s.cool.fault = false then s.attn.set .sensorFault else s.attn) ∧
      u.cool.lastCode = code ∧ u.cool.sampleFrom = some s.now ∧
      u.cool.temp = (if good then
          some (min 800 (max (-400) ((((c * s.cfg.ms + 512) / 1024 : Nat) : Int) + s.cfg.os)))
        else s.cool.temp) ∧
      (u.cool.fault = false ↔ good) ∧
      u.cool.faultSamples = (if good then 0 else if s.cool.fault then
          (if s.cool.faultSamples < 255 then s.cool.faultSamples + 1 else s.cool.faultSamples)
        else 1) ∧
      (∀ temp, good → u.cool.temp = some temp → u.cool.warmHold =
        (if s.cfg.twarm ≤ temp then true
          else if temp ≤ s.cfg.twarm - s.cfg.hyst then false else s.cool.warmHold)) ∧
      (¬ good → u.cool.warmHold = s.cool.warmHold) ∧
      u.cool.demand = (if s.cool.coolOff then 0
        else if ¬ good ∧ 41 ≤ u.cool.faultSamples then s.cfg.dfault
        else
          let e := match u.cool.temp with
            | some temp => temp - s.cfg.tset
            | none => 0
          (min 255 (max 0 (Int.fdiv (e * s.cfg.dgain) 16 + s.pours * s.cfg.dpour))).toNat) ∧
      u.cool.freshDemand = freshPeerDemand s ∧
      u.cool.grant = (if u.cool.demand + u.cool.freshDemand ≤ s.cfg.cap then u.cool.demand
        else u.cool.demand * s.cfg.cap / (u.cool.demand + u.cool.freshDemand)) ∧
      u.cool.starved = decide (u.cool.grant < u.cool.demand) ∧
      u.cool.latched = s.cool.latched ∧ u.cool.frameFrom = s.cool.frameFrom ∧
      u.cool.gly = s.cool.gly ∧ u.cool.coolOff = s.cool.coolOff

/-! ## Cleaning -/

/-- Flag changes of the recipe (R158, R159, R165): the flag follows its pin in every state, its debounce
hold ending, and FLOW clears when its timer runs out. Outside a run in TESTING, or while the test stays
false, nothing else happens; a test that becomes true takes the next, which may be END (R168). A level
already taken is no change (the model's choice, log 30). The model's readings are a FLOW_TIMEOUT without
FLOW, which changes nothing (log 6), and the duration modulo 2^32 of the CLEAN record that END writes (log
20). -/
def Obligations.FlagChanges : Prop :=
  ∀ (s : State) (pin : CondPin) (level : Bool), s.rstnLow = false →
    let flags := match pin with
      | .chem => { s.clean.flags with chem := level }
      | .clear => { s.clean.flags with clear := level }
      | .ext => { s.clean.flags with ext := level }
    let holds := match pin with
      | .chem => { s.clean.holds with chem := none }
      | .clear => { s.clean.holds with clear := none }
      | .ext => { s.clean.holds with ext := none }
    let t := { s with clean := { s.clean with flags, holds } }
    let still := { s.clean.flags with flow := false }
    let u := { s with clean := { s.clean with flowFrom := none, flags := still } }
    (flags = s.clean.flags → exec (.conditionPinChange pin level) s = .next s) ∧
    (flags ≠ s.clean.flags → s.clean.runState ≠ .running →
      exec (.conditionPinChange pin level) s = .next t) ∧
    (∀ p, s.clean.runState = .running → s.clean.progress = some p → flags ≠ s.clean.flags →
      (p.phase = .dwell ∨ advanceTest (s.stepAt p.step) flags = false →
        exec (.conditionPinChange pin level) s = .next t) ∧
      (p.phase = .testing → advanceTest (s.stepAt p.step) flags = true → StationOk s →
        ∃ v, exec (.conditionPinChange pin level) s = .next v ∧ NextTaken p t v)) ∧
    (∀ p, s.clean.runState = .running → s.clean.progress = some p →
      (s.clean.flags.flow = false → exec .flowTimeout s = .next s) ∧
      (s.clean.flags.flow = true → p.phase = .dwell ∨ advanceTest (s.stepAt p.step) still = false →
        exec .flowTimeout s = .next u) ∧
      (s.clean.flags.flow = true → p.phase = .testing → StationOk s →
        advanceTest (s.stepAt p.step) still = true →
        ∃ v, exec .flowTimeout s = .next v ∧ NextTaken p u v))

/-- The expiries of a step (R164, R166, R168): at the dwell a true test takes the next and a false one
leaves the step in TESTING; at the limit, or at the single expiry of a step whose limit is its dwell with a
false test, the fault next is taken. The next may be END and the fault next FAIL; the duration modulo 2^32
of the CLEAN record that these write is the model's reading (log 20). -/
def Obligations.StepExpiries : Prop :=
  ∀ (s : State) (p : Progress), s.rstnLow = false → StationOk s → s.clean.runState = .running →
    s.clean.progress = some p →
    let st := s.stepAt p.step
    let test := advanceTest st s.clean.flags
    (p.phase = .dwell → st.limit ≠ st.dwell → test = false →
      exec .dwellExpiry s = .next { s with clean := { s.clean with
        progress := some { p with phase := .testing } } }) ∧
    (p.phase = .dwell → test = true → ∃ t, exec .dwellExpiry s = .next t ∧ NextTaken p s t) ∧
    (p.phase = .dwell → st.limit = st.dwell → test = false →
      ∃ t, exec .dwellExpiry s = .next t ∧ FaultTaken p s t) ∧
    (p.phase = .testing → st.limit ≠ 0 → ∃ t, exec .limitExpiry s = .next t ∧ FaultTaken p s t)

/-! ## Arithmetic and comparisons -/

/-- Generations are compared by their modulo-256 distance (R88). -/
def Obligations.GenerationOrder : Prop :=
  (∀ g v : BitVec 8,
    let d := (g.toNat + 256 - v.toNat) % 256
    genOrder g v = (if d = 0 then .equal else if d ≤ 127 then .newer else .older)) ∧
  genOrder 3 250 = .newer ∧ genOrder 140 10 = .older

/-- The advance test (R161), for every test kind, mask and pattern; an empty mask is true. -/
def Obligations.AdvanceTest : Prop :=
  ∀ (st : StepRec) (f : CondFlags),
    let inMask := fun g : CondFlags → Bool => g st.mask = true
    let each := [CondFlags.flow, CondFlags.volume, CondFlags.chem, CondFlags.clear, CondFlags.ext]
    (st.kind = .allSet → (advanceTest st f = true ↔ ∀ g ∈ each, inMask g → g f = true)) ∧
    (st.kind = .allClear → (advanceTest st f = true ↔ ∀ g ∈ each, inMask g → g f = false)) ∧
    (st.kind = .pattern →
      (advanceTest st f = true ↔ ∀ g ∈ each, inMask g → g f = g st.pattern)) ∧
    (st.mask = .none → advanceTest st f = true)

/-- A portion whose T was not clamped down to 65535 reports at least its target volume once its beer
pulses have reached T (R44, R45), for coefficients in the ranges of R39. -/
def Obligations.PortionReachesTarget : Prop :=
  ∀ (k pt beer : Nat) (g oq : Int), 50 ≤ k → -32768 ≤ g → -512 ≤ oq →
    pulseTarget k g oq pt < 65535 → pulseTarget k g oq pt ≤ beer → pt ≤ pourVolume k g oq beer

/-- The volume of R40 stays in its width and is never negative (R41): the bounds of its products and its
largest value for coefficients in the ranges of R39; 0 with Q clamped to 0 and 0 without beer pulses; never
falling as the beer pulses grow, by K × (65536 + G) ÷ 65536 µL a pulse before rounding; and less than 0.1 mL
from the exact value once a beer pulse is counted. Where R40 and R41 differ, without beer pulses and with a
positive Oq, the model follows R41 (DESIGN CHOICE, log 36). -/
def Obligations.VolumeBounds : Prop :=
  (∀ (k b : Nat) (g oq : Int), k ≤ 2000 → -32768 ≤ g → g ≤ 32767 → oq ≤ 511 → b ≤ 65535 →
    quarterPulses b oq ≤ 262651 ∧ 32768 ≤ gainFactor g ∧ gainFactor g ≤ 98303 ∧
    quarterPulses b oq * gainFactor g * k ≤ 51638762506000 ∧ (51638762506000 : Nat) < 2 ^ 46 ∧
    volumeMicro k g oq b ≤ 196986246 ∧ pourVolume k g oq b ≤ 1969862) ∧
  volumeMicro 2000 32767 511 65535 = 196986246 ∧ pourVolume 2000 32767 511 65535 = 1969862 ∧
  ∀ (k b b' : Nat) (g oq : Int),
    (b = 0 ∨ 4 * (b : Int) + oq ≤ 0 → volumeMicro k g oq b = 0 ∧ pourVolume k g oq b = 0) ∧
    (b ≤ b' → pourVolume k g oq b ≤ pourVolume k g oq b') ∧
    (0 ≤ 4 * (b : Int) + oq → quarterPulses (b + 1) oq * gainFactor g * k =
      quarterPulses b oq * gainFactor g * k + 4 * (gainFactor g * k)) ∧
    (1 ≤ b → volumeMicro k g oq b = (quarterPulses b oq * gainFactor g * k + 131072) / 262144 ∧
      pourVolume k g oq b * 26214400 < quarterPulses b oq * gainFactor g * k + 26214400 ∧
      quarterPulses b oq * gainFactor g * k < pourVolume k g oq b * 26214400 + 26214400)

/-- Two stations with different numbers never draw the same retry wait at the same collision count: their
waits differ by at least 22 bit-times (R113, R115). -/
def Obligations.RetryWaits : Prop :=
  (∀ a b k : Nat, 1 ≤ a → a ≤ 32 → 1 ≤ b → b ≤ 32 → a < b → 1 ≤ k → k ≤ 7 →
    accessWait a k + 22 ≤ accessWait b k ∨ accessWait b k + 22 ≤ accessWait a k) ∧
  (∀ a, accessWait a 0 = 30) ∧
  [1, 2, 3, 4, 5, 6, 7].map (accessWait 5) = [228, 338, 448, 558, 668, 74, 184]

/-! ## What every step keeps -/

/-- The reset state meets every invariant below. -/
def Obligations.ResetMeetsInvariants : Prop :=
  let s := State.reset
  OrdersOk s ∧ CoolingOk s ∧ LinkOk s ∧ DriverOk s ∧ StaleOk s ∧ WidthsOk s ∧ StationOk s ∧ LampsOk s

/-- Every step keeps the order queues as R53 gives them, and the counters inside their widths (R33, R36,
R37, R81, R105, R157, R177). -/
def Obligations.OrdersAndCountersKept : Prop :=
  ∀ s t : State, step s = .next t →
    (OrdersOk s → OrdersOk t) ∧ (WidthsOk s → WidthsOk t)

/-- Every step keeps the demand, the grant and GLY as R134, R144, R145 and R147 give them. -/
def Obligations.CoolingKept : Prop :=
  ∀ s t : State, CoolingOk s → step s = .next t → CoolingOk t

/-- Every step keeps the transmit queue, the current frame and the receive assembly consistent (R104, R110,
R118, R121); the driver sends the frame of the attempt (R100, R114); and a STALE record has had no STATUS
for 3000 ms (R127, R132). -/
def Obligations.LinkKept : Prop :=
  ∀ s t : State, step s = .next t →
    (LinkOk s → LinkOk t) ∧ (DriverOk s → DriverOk t) ∧ (StaleOk s → StaleOk t)

/-- Every step keeps the tower, the pending start list, the journal's slots and the cleaning run
consistent: the records held plus the slots reserved never exceed 64 (R64), no line past PREPARING pours
(R176), and a faucet valve is open only for a pour or a FAUCETS step (R7). And it keeps the lamps
following their lines (R6). -/
def Obligations.StationKept : Prop :=
  ∀ s t : State, StationOk s → step s = .next t →
    StationOk t ∧ (LampsOk s → LampsOk t)

/-- Drawn never decreases while the generation is unchanged (R83), reset apart: whatever command or event
is taken, the reading of drawn for a source does not fall unless its generation moves or the station is
reset. -/
def Obligations.DrawnNeverFalls : Prop :=
  ∀ (s t : State) (x : SourceNo), step s = .next t → t.station ≠ .unconfigured →
    (t.source x).gen = (s.source x).gen → min (s.drawn x) 4294967295 ≤ min (t.drawn x) 4294967295

/-- A run enters RUNNING only when, in its own view, the FRESH ACTIVE peers and the FRESH claimants ranked
ahead number fewer than CleanSlots, its own claim age is at least 2, and it is not in MUTE (R178). -/
def Obligations.RunningNeedsSlot : Prop :=
  ∀ s t : State, step s = .next t → s.clean.runState ≠ .running → t.clean.runState = .running →
    2 ≤ t.clean.age ∧ t.link.mute = false ∧
    (t.numberedPeers.filter fun e => e.2.fresh && (e.2.body.clean == .active ||
      (e.2.body.clean == .claiming && (t.clean.age < e.2.body.age.toNat ||
        (e.2.body.age.toNat == t.clean.age && e.1 < t.cfg.station))))).length < t.cfg.cleanSlots

/-- What only some commands can change (R39, R49, R65, R119, R190, R191): the configuration moves only by
CONFIGURE, CALIBRATE or a reset, an attention flag clears only by READ-ATTENTION or a reset, MUTE clears
only by CLEAR-MUTE or a reset, station seconds moves only by its tick, CONFIGURE or a reset, and the
station leaves RUNNING only by STOP or a reset. -/
def Obligations.OnlyTheseChange : Prop :=
  ∀ (c : Instr) (s t : State), exec c s = .next t → t ≠ { afterReset s with port := t.port, rstnLow := t.rstnLow } →
    ((∀ img, c ≠ .configure img) → (∀ l v, c ≠ .calibrate l v) → t.config = s.config) ∧
    (c ≠ .readAttention → ∀ f, s.attn.set f = s.attn → t.attn.set f = t.attn) ∧
    (c ≠ .clearMute → s.link.mute = true → t.link.mute = true) ∧
    ((∀ img, c ≠ .configure img) → c ≠ .stationSecondsTick → t.seconds = s.seconds) ∧
    (c ≠ .stop → s.station = .running → t.station = .running)
end

