-- ==== Sys2Proof/Laws/State.lean ====
section
/-! SUPPORT. The fields of the state after each update, and reading back a line, a source record and a
peer record after a write. Later proofs cite these and unfold no record update. -/

namespace Sys2Proof.Machine

section setLine

variable (s : State) (i : LineNo) (l : Line)

@[simp] theorem setLine_now : (s.setLine i l).now = s.now := rfl
@[simp] theorem setLine_rstnLow : (s.setLine i l).rstnLow = s.rstnLow := rfl
@[simp] theorem setLine_station : (s.setLine i l).station = s.station := rfl
@[simp] theorem setLine_config : (s.setLine i l).config = s.config := rfl
@[simp] theorem setLine_port : (s.setLine i l).port = s.port := rfl
@[simp] theorem setLine_attn : (s.setLine i l).attn = s.attn := rfl
@[simp] theorem setLine_seconds : (s.setLine i l).seconds = s.seconds := rfl
@[simp] theorem setLine_secondFrom : (s.setLine i l).secondFrom = s.secondFrom := rfl
@[simp] theorem setLine_starts : (s.setLine i l).starts = s.starts := rfl
@[simp] theorem setLine_pours : (s.setLine i l).pours = s.pours := rfl
@[simp] theorem setLine_journal : (s.setLine i l).journal = s.journal := rfl
@[simp] theorem setLine_sources : (s.setLine i l).sources = s.sources := rfl
@[simp] theorem setLine_link : (s.setLine i l).link = s.link := rfl
@[simp] theorem setLine_peers : (s.setLine i l).peers = s.peers := rfl
@[simp] theorem setLine_cool : (s.setLine i l).cool = s.cool := rfl
@[simp] theorem setLine_clean : (s.setLine i l).clean = s.clean := rfl
@[simp] theorem setLine_pending : (s.setLine i l).pending = s.pending := rfl
@[simp] theorem setLine_cfg : (s.setLine i l).cfg = s.cfg := rfl

end setLine

section setSource

variable (s : State) (x : SourceNo) (r : SourceRec)

@[simp] theorem setSource_now : (s.setSource x r).now = s.now := rfl
@[simp] theorem setSource_rstnLow : (s.setSource x r).rstnLow = s.rstnLow := rfl
@[simp] theorem setSource_station : (s.setSource x r).station = s.station := rfl
@[simp] theorem setSource_config : (s.setSource x r).config = s.config := rfl
@[simp] theorem setSource_port : (s.setSource x r).port = s.port := rfl
@[simp] theorem setSource_attn : (s.setSource x r).attn = s.attn := rfl
@[simp] theorem setSource_seconds : (s.setSource x r).seconds = s.seconds := rfl
@[simp] theorem setSource_secondFrom : (s.setSource x r).secondFrom = s.secondFrom := rfl
@[simp] theorem setSource_lines : (s.setSource x r).lines = s.lines := rfl
@[simp] theorem setSource_starts : (s.setSource x r).starts = s.starts := rfl
@[simp] theorem setSource_pours : (s.setSource x r).pours = s.pours := rfl
@[simp] theorem setSource_journal : (s.setSource x r).journal = s.journal := rfl
@[simp] theorem setSource_link : (s.setSource x r).link = s.link := rfl
@[simp] theorem setSource_peers : (s.setSource x r).peers = s.peers := rfl
@[simp] theorem setSource_cool : (s.setSource x r).cool = s.cool := rfl
@[simp] theorem setSource_clean : (s.setSource x r).clean = s.clean := rfl
@[simp] theorem setSource_pending : (s.setSource x r).pending = s.pending := rfl
@[simp] theorem setSource_cfg : (s.setSource x r).cfg = s.cfg := rfl

end setSource

section setPeer

variable (s : State) (n : Fin 32) (p : Option PeerRec)

@[simp] theorem setPeer_now : (s.setPeer n p).now = s.now := rfl
@[simp] theorem setPeer_rstnLow : (s.setPeer n p).rstnLow = s.rstnLow := rfl
@[simp] theorem setPeer_station : (s.setPeer n p).station = s.station := rfl
@[simp] theorem setPeer_config : (s.setPeer n p).config = s.config := rfl
@[simp] theorem setPeer_port : (s.setPeer n p).port = s.port := rfl
@[simp] theorem setPeer_attn : (s.setPeer n p).attn = s.attn := rfl
@[simp] theorem setPeer_seconds : (s.setPeer n p).seconds = s.seconds := rfl
@[simp] theorem setPeer_secondFrom : (s.setPeer n p).secondFrom = s.secondFrom := rfl
@[simp] theorem setPeer_lines : (s.setPeer n p).lines = s.lines := rfl
@[simp] theorem setPeer_starts : (s.setPeer n p).starts = s.starts := rfl
@[simp] theorem setPeer_pours : (s.setPeer n p).pours = s.pours := rfl
@[simp] theorem setPeer_journal : (s.setPeer n p).journal = s.journal := rfl
@[simp] theorem setPeer_sources : (s.setPeer n p).sources = s.sources := rfl
@[simp] theorem setPeer_link : (s.setPeer n p).link = s.link := rfl
@[simp] theorem setPeer_cool : (s.setPeer n p).cool = s.cool := rfl
@[simp] theorem setPeer_clean : (s.setPeer n p).clean = s.clean := rfl
@[simp] theorem setPeer_pending : (s.setPeer n p).pending = s.pending := rfl
@[simp] theorem setPeer_cfg : (s.setPeer n p).cfg = s.cfg := rfl

end setPeer

section raise

variable (f : AttnFlag) (s : State)

@[simp] theorem raise_now : (raise f s).now = s.now := rfl
@[simp] theorem raise_rstnLow : (raise f s).rstnLow = s.rstnLow := rfl
@[simp] theorem raise_station : (raise f s).station = s.station := rfl
@[simp] theorem raise_config : (raise f s).config = s.config := rfl
@[simp] theorem raise_port : (raise f s).port = s.port := rfl
@[simp] theorem raise_seconds : (raise f s).seconds = s.seconds := rfl
@[simp] theorem raise_secondFrom : (raise f s).secondFrom = s.secondFrom := rfl
@[simp] theorem raise_lines : (raise f s).lines = s.lines := rfl
@[simp] theorem raise_starts : (raise f s).starts = s.starts := rfl
@[simp] theorem raise_pours : (raise f s).pours = s.pours := rfl
@[simp] theorem raise_journal : (raise f s).journal = s.journal := rfl
@[simp] theorem raise_sources : (raise f s).sources = s.sources := rfl
@[simp] theorem raise_link : (raise f s).link = s.link := rfl
@[simp] theorem raise_peers : (raise f s).peers = s.peers := rfl
@[simp] theorem raise_cool : (raise f s).cool = s.cool := rfl
@[simp] theorem raise_clean : (raise f s).clean = s.clean := rfl
@[simp] theorem raise_pending : (raise f s).pending = s.pending := rfl
@[simp] theorem raise_cfg : (raise f s).cfg = s.cfg := rfl

end raise

section modLink

variable (f : Link → Link) (s : State)

@[simp] theorem modLink_now : (modLink f s).now = s.now := rfl
@[simp] theorem modLink_rstnLow : (modLink f s).rstnLow = s.rstnLow := rfl
@[simp] theorem modLink_station : (modLink f s).station = s.station := rfl
@[simp] theorem modLink_config : (modLink f s).config = s.config := rfl
@[simp] theorem modLink_port : (modLink f s).port = s.port := rfl
@[simp] theorem modLink_attn : (modLink f s).attn = s.attn := rfl
@[simp] theorem modLink_seconds : (modLink f s).seconds = s.seconds := rfl
@[simp] theorem modLink_secondFrom : (modLink f s).secondFrom = s.secondFrom := rfl
@[simp] theorem modLink_lines : (modLink f s).lines = s.lines := rfl
@[simp] theorem modLink_starts : (modLink f s).starts = s.starts := rfl
@[simp] theorem modLink_pours : (modLink f s).pours = s.pours := rfl
@[simp] theorem modLink_journal : (modLink f s).journal = s.journal := rfl
@[simp] theorem modLink_sources : (modLink f s).sources = s.sources := rfl
@[simp] theorem modLink_peers : (modLink f s).peers = s.peers := rfl
@[simp] theorem modLink_cool : (modLink f s).cool = s.cool := rfl
@[simp] theorem modLink_clean : (modLink f s).clean = s.clean := rfl
@[simp] theorem modLink_pending : (modLink f s).pending = s.pending := rfl
@[simp] theorem modLink_cfg : (modLink f s).cfg = s.cfg := rfl

end modLink

section modClean

variable (f : Cleaning → Cleaning) (s : State)

@[simp] theorem modClean_now : (modClean f s).now = s.now := rfl
@[simp] theorem modClean_rstnLow : (modClean f s).rstnLow = s.rstnLow := rfl
@[simp] theorem modClean_station : (modClean f s).station = s.station := rfl
@[simp] theorem modClean_config : (modClean f s).config = s.config := rfl
@[simp] theorem modClean_port : (modClean f s).port = s.port := rfl
@[simp] theorem modClean_attn : (modClean f s).attn = s.attn := rfl
@[simp] theorem modClean_seconds : (modClean f s).seconds = s.seconds := rfl
@[simp] theorem modClean_secondFrom : (modClean f s).secondFrom = s.secondFrom := rfl
@[simp] theorem modClean_lines : (modClean f s).lines = s.lines := rfl
@[simp] theorem modClean_starts : (modClean f s).starts = s.starts := rfl
@[simp] theorem modClean_pours : (modClean f s).pours = s.pours := rfl
@[simp] theorem modClean_journal : (modClean f s).journal = s.journal := rfl
@[simp] theorem modClean_sources : (modClean f s).sources = s.sources := rfl
@[simp] theorem modClean_link : (modClean f s).link = s.link := rfl
@[simp] theorem modClean_peers : (modClean f s).peers = s.peers := rfl
@[simp] theorem modClean_cool : (modClean f s).cool = s.cool := rfl
@[simp] theorem modClean_pending : (modClean f s).pending = s.pending := rfl
@[simp] theorem modClean_cfg : (modClean f s).cfg = s.cfg := rfl

end modClean

@[simp] theorem raise_attn (f : AttnFlag) (s : State) : (raise f s).attn = s.attn.set f := rfl

@[simp] theorem modLink_link (f : Link → Link) (s : State) : (modLink f s).link = f s.link := rfl

@[simp] theorem modClean_clean (f : Cleaning → Cleaning) (s : State) :
    (modClean f s).clean = f s.clean := rfl

/-- A line reads back as it was written. -/
@[simp] theorem line_setLine_same (s : State) (i : LineNo) (l : Line) : (s.setLine i l).line i = l := by
  simp [State.line, State.setLine]

/-- A write of one line leaves every other line. -/
theorem line_setLine_ne (s : State) {i j : LineNo} (l : Line) (h : j ≠ i) :
    (s.setLine i l).line j = s.line j := by
  have h' : i.val ≠ j.val := fun e => h (Fin.ext e.symm)
  simp [State.line, State.setLine, h']

theorem line_setLine (s : State) (i j : LineNo) (l : Line) :
    (s.setLine i l).line j = if j = i then l else s.line j := by
  by_cases h : j = i
  · subst h; simp
  · simp [h, line_setLine_ne s l h]

/-- Writing back what a line holds changes nothing. -/
@[simp] theorem setLine_self (s : State) (i : LineNo) : s.setLine i (s.line i) = s := by
  simp [State.line, State.setLine]

@[simp] theorem setLine_setLine (s : State) (i : LineNo) (a b : Line) :
    (s.setLine i a).setLine i b = s.setLine i b := by
  simp [State.setLine]

/-- A source record reads back as it was written. -/
@[simp] theorem source_setSource_same (s : State) (x : SourceNo) (r : SourceRec) :
    (s.setSource x r).source x = r := by
  simp [State.source, State.setSource]

/-- A write of one source record leaves every other. -/
theorem source_setSource_ne (s : State) {x y : SourceNo} (r : SourceRec) (h : y ≠ x) :
    (s.setSource x r).source y = s.source y := by
  have h' : x.val ≠ y.val := fun e => h (Fin.ext e.symm)
  simp [State.source, State.setSource, h']

@[simp] theorem setSource_self (s : State) (x : SourceNo) : s.setSource x (s.source x) = s := by
  simp [State.source, State.setSource]

/-- A peer record reads back as it was stored. -/
@[simp] theorem peer_setPeer_same (s : State) (n : Fin 32) (p : Option PeerRec) :
    (s.setPeer n p).peer n = p := by
  simp [State.peer, State.setPeer]

/-- Storing one peer record leaves every other. -/
theorem peer_setPeer_ne (s : State) {n m : Fin 32} (p : Option PeerRec) (h : m ≠ n) :
    (s.setPeer n p).peer m = s.peer m := by
  have h' : n.val ≠ m.val := fun e => h (Fin.ext e.symm)
  simp [State.peer, State.setPeer, h']

/-- Two states with the same lines, read one by one, hold the same lines. -/
theorem lines_ext {s t : State} (h : ∀ i, t.line i = s.line i) : t.lines = s.lines := by
  apply Vector.ext
  intro i hi
  exact h ⟨i, hi⟩

@[simp] theorem setLine_source (s : State) (i : LineNo) (l : Line) (y : SourceNo) : (s.setLine i l).source y = s.source y := rfl
@[simp] theorem setLine_peer (s : State) (i : LineNo) (l : Line) (m : Fin 32) : (s.setLine i l).peer m = s.peer m := rfl
@[simp] theorem setLine_lineCfg (s : State) (i : LineNo) (l : Line) (j : LineNo) : (s.setLine i l).lineCfg j = s.lineCfg j := rfl
@[simp] theorem setLine_configured (s : State) (i : LineNo) (l : Line) (j : LineNo) :
    (s.setLine i l).configured j = s.configured j := rfl
@[simp] theorem setLine_ordered (s : State) (i : LineNo) (l : Line) (j : LineNo) :
    (s.setLine i l).ordered j = s.ordered j := rfl

@[simp] theorem setSource_line (s : State) (x : SourceNo) (r : SourceRec) (j : LineNo) : (s.setSource x r).line j = s.line j := rfl
@[simp] theorem setSource_peer (s : State) (x : SourceNo) (r : SourceRec) (m : Fin 32) : (s.setSource x r).peer m = s.peer m := rfl
@[simp] theorem setSource_lineCfg (s : State) (x : SourceNo) (r : SourceRec) (j : LineNo) : (s.setSource x r).lineCfg j = s.lineCfg j := rfl
@[simp] theorem setSource_configured (s : State) (x : SourceNo) (r : SourceRec) (j : LineNo) :
    (s.setSource x r).configured j = s.configured j := rfl
@[simp] theorem setSource_ordered (s : State) (x : SourceNo) (r : SourceRec) (j : LineNo) :
    (s.setSource x r).ordered j = s.ordered j := rfl

@[simp] theorem setPeer_line (s : State) (n : Fin 32) (p : Option PeerRec) (j : LineNo) : (s.setPeer n p).line j = s.line j := rfl
@[simp] theorem setPeer_source (s : State) (n : Fin 32) (p : Option PeerRec) (y : SourceNo) : (s.setPeer n p).source y = s.source y := rfl
@[simp] theorem setPeer_lineCfg (s : State) (n : Fin 32) (p : Option PeerRec) (j : LineNo) : (s.setPeer n p).lineCfg j = s.lineCfg j := rfl
@[simp] theorem setPeer_configured (s : State) (n : Fin 32) (p : Option PeerRec) (j : LineNo) :
    (s.setPeer n p).configured j = s.configured j := rfl
@[simp] theorem setPeer_ordered (s : State) (n : Fin 32) (p : Option PeerRec) (j : LineNo) :
    (s.setPeer n p).ordered j = s.ordered j := rfl

@[simp] theorem raise_line (f : AttnFlag) (s : State) (j : LineNo) : (raise f s).line j = s.line j := rfl
@[simp] theorem raise_source (f : AttnFlag) (s : State) (y : SourceNo) : (raise f s).source y = s.source y := rfl
@[simp] theorem raise_peer (f : AttnFlag) (s : State) (m : Fin 32) : (raise f s).peer m = s.peer m := rfl
@[simp] theorem raise_lineCfg (f : AttnFlag) (s : State) (j : LineNo) : (raise f s).lineCfg j = s.lineCfg j := rfl
@[simp] theorem raise_configured (f : AttnFlag) (s : State) (j : LineNo) :
    (raise f s).configured j = s.configured j := rfl
@[simp] theorem raise_ordered (f : AttnFlag) (s : State) (j : LineNo) :
    (raise f s).ordered j = s.ordered j := rfl

@[simp] theorem modLink_line (f : Link → Link) (s : State) (j : LineNo) : (modLink f s).line j = s.line j := rfl
@[simp] theorem modLink_source (f : Link → Link) (s : State) (y : SourceNo) : (modLink f s).source y = s.source y := rfl
@[simp] theorem modLink_peer (f : Link → Link) (s : State) (m : Fin 32) : (modLink f s).peer m = s.peer m := rfl
@[simp] theorem modLink_lineCfg (f : Link → Link) (s : State) (j : LineNo) : (modLink f s).lineCfg j = s.lineCfg j := rfl
@[simp] theorem modLink_configured (f : Link → Link) (s : State) (j : LineNo) :
    (modLink f s).configured j = s.configured j := rfl
@[simp] theorem modLink_ordered (f : Link → Link) (s : State) (j : LineNo) :
    (modLink f s).ordered j = s.ordered j := rfl

@[simp] theorem modClean_line (f : Cleaning → Cleaning) (s : State) (j : LineNo) : (modClean f s).line j = s.line j := rfl
@[simp] theorem modClean_source (f : Cleaning → Cleaning) (s : State) (y : SourceNo) : (modClean f s).source y = s.source y := rfl
@[simp] theorem modClean_peer (f : Cleaning → Cleaning) (s : State) (m : Fin 32) : (modClean f s).peer m = s.peer m := rfl
@[simp] theorem modClean_lineCfg (f : Cleaning → Cleaning) (s : State) (j : LineNo) : (modClean f s).lineCfg j = s.lineCfg j := rfl
@[simp] theorem modClean_configured (f : Cleaning → Cleaning) (s : State) (j : LineNo) :
    (modClean f s).configured j = s.configured j := rfl
@[simp] theorem modClean_ordered (f : Cleaning → Cleaning) (s : State) (j : LineNo) :
    (modClean f s).ordered j = s.ordered j := rfl

end Sys2Proof.Machine
end

