-- ==== Sys2Proof/Laws/Ops.lean ====
section
/-! SUPPORT. What each shared operation can do, said once: the parts of the state it touches, and what it
makes of the line, the record or the queue it works on. -/

namespace Sys2Proof.Machine

/-! ## Frames -/

theorem Only.refl (ps : List Part) (s : State) : Only ps s s := by
  intro p _; cases p <;> simp [Part.same]

theorem Part.same_trans {p : Part} {s t u : State} (h : p.same s t) (h' : p.same t u) : p.same s u := by
  cases p <;> simp_all [Part.same]

theorem Only.trans {ps : List Part} {s t u : State} (h : Only ps s t) (h' : Only ps t u) : Only ps s u :=
  fun p hp => Part.same_trans (h p hp) (h' p hp)

theorem Only.mono {ps qs : List Part} {s t : State} (h : Only ps s t) (hs : ∀ p, p ∈ ps → p ∈ qs) :
    Only qs s t := fun p hp => h p fun hq => hp (hs p hq)

theorem OtherLines.refl (i : LineNo) (s : State) : OtherLines i s s := fun _ _ => rfl

theorem OtherLines.trans {i : LineNo} {s t u : State} (h : OtherLines i s t) (h' : OtherLines i t u) :
    OtherLines i s u := fun j hj => (h' j hj).trans (h j hj)

theorem setLine_only (s : State) (i : LineNo) (l : Line) : Only [.lines] s (s.setLine i l) := by
  intro p hp; cases p <;> simp_all [Part.same]

theorem setLine_others (s : State) (i : LineNo) (l : Line) : OtherLines i s (s.setLine i l) :=
  fun _ hj => line_setLine_ne s l hj

theorem setSource_only (s : State) (x : SourceNo) (r : SourceRec) :
    Only [.sources] s (s.setSource x r) := by
  intro p hp; cases p <;> simp_all [Part.same]

theorem raise_only (f : AttnFlag) (s : State) : Only [.attn] s (raise f s) := by
  intro p hp; cases p <;> simp_all [Part.same]

theorem modLink_only (f : Link → Link) (s : State) : Only [.link] s (modLink f s) := by
  intro p hp; cases p <;> simp_all [Part.same]

theorem modClean_only (f : Cleaning → Cleaning) (s : State) : Only [.clean] s (modClean f s) := by
  intro p hp; cases p <;> simp_all [Part.same]

theorem setPeer_only (s : State) (n : Fin 32) (p : Option PeerRec) :
    Only [.peers] s (s.setPeer n p) := by
  intro q hq; cases q <;> simp_all [Part.same]

/-! ## Lamps and line states -/

/-- The pattern of a lamp reads the line's state and flash, its source's EMPTY status, the warm hold and
the configuration, and nothing else (R6). -/
theorem lampPattern_congr {s t : State} {i : LineNo} (hc : t.config = s.config)
    (hs : t.sources = s.sources) (hw : t.cool.warmHold = s.cool.warmHold)
    (hl : (t.line i).state = (s.line i).state) (hf : (t.line i).flashFrom = (s.line i).flashFrom) :
    lampPattern t i = lampPattern s i := by
  simp only [lampPattern, State.configured, State.cfg, State.sourceEmpty, State.lineCfg, State.source,
    hc, hs, hw, hl, hf]
  rfl

@[simp] theorem lit_lamp (l : Line) (p : LampPattern) (now : Nat) : (l.lit p now).lamp = p := by
  unfold Line.lit; split <;> simp_all

@[simp] theorem lit_state (l : Line) (p : LampPattern) (now : Nat) : (l.lit p now).state = l.state := by
  unfold Line.lit; split <;> rfl

@[simp] theorem lit_flashFrom (l : Line) (p : LampPattern) (now : Nat) :
    (l.lit p now).flashFrom = l.flashFrom := by
  unfold Line.lit; split <;> rfl

/-- A lamp that takes a pattern changes nothing of its line but the lamp (R6). -/
@[simp] theorem lit_sansLamp (l : Line) (p : LampPattern) (now : Nat) :
    (l.lit p now).sansLamp = l.sansLamp := by
  unfold Line.lit; split <;> rfl

theorem relamp_only (i : LineNo) (s : State) : Only [.lines] s (relamp i s) := setLine_only s i _

theorem relamp_others (i : LineNo) (s : State) : OtherLines i s (relamp i s) := setLine_others s i _

/-- A lamp that follows its line leaves the rest of the line, and then shows the pattern of R6. -/
theorem relamp_line (i : LineNo) (s : State) : LineBecomes (relamp i s) i (s.line i) := by
  refine ⟨by simp [relamp], ?_⟩
  rw [lampPattern_congr (t := relamp i s) (s := s) rfl rfl rfl] <;> simp [relamp]

/-- A write of a line followed by its lamp. -/
theorem relamp_setLine (i : LineNo) (s : State) (l : Line) :
    LineBecomes (relamp i (s.setLine i l)) i l ∧ OtherLines i s (relamp i (s.setLine i l)) ∧
      Only [.lines] s (relamp i (s.setLine i l)) := by
  refine ⟨?_, (setLine_others s i l).trans (relamp_others i _),
    (setLine_only s i l).trans (relamp_only i _)⟩
  have h := relamp_line i (s.setLine i l)
  simpa using h

theorem setState_spec (i : LineNo) (st : LineState) (s : State) :
    LineBecomes (setState i st s) i { s.line i with state := st } ∧ OtherLines i s (setState i st s) ∧
      Only [.lines] s (setState i st s) := relamp_setLine i s _

theorem refuseFlash_spec (i : LineNo) (s : State) :
    LineBecomes (refuseFlash i s) i { s.line i with flashFrom := some s.now } ∧
      OtherLines i s (refuseFlash i s) ∧ Only [.lines] s (refuseFlash i s) := relamp_setLine i s _

theorem clearLock_spec (i : LineNo) (s : State) :
    LineBecomes (clearLock i s) i { s.line i with
        lock := .clear,
        state := if (s.line i).state = .locked then .ready else (s.line i).state } ∧
      OtherLines i s (clearLock i s) ∧ Only [.lines] s (clearLock i s) := relamp_setLine i s _

theorem removeStart_only (i : LineNo) (s : State) : Only [.starts] s (removeStart i s) := by
  intro p hp; cases p <;> simp_all [Part.same, removeStart]

@[simp] theorem removeStart_line (i j : LineNo) (s : State) : (removeStart i s).line j = s.line j := rfl

/-- An entry refused leaves the list, its line flashes and takes the state given (R12). -/
theorem refuseEntry_spec (i : LineNo) (st : LineState) (s : State) :
    EntryRefused i st s (refuseEntry i st s) := by
  obtain ⟨h1, h2, h3⟩ := relamp_setLine i (removeStart i s)
    { s.line i with state := st, flashFrom := some s.now }
  refine ⟨h1, fun j hj => h2 j hj, ?_, ?_⟩
  · exact h3 .starts (by simp)
  · exact ((removeStart_only i s).mono (by simp)).trans (h3.mono (by simp))

theorem setLock_spec (i : LineNo) (r : LockReason) (s : State) :
    (setLock i r s).line i = { s.line i with lock := r } ∧ OtherLines i s (setLock i r s) ∧
      (setLock i r s).attn = s.attn.set .lineLocked ∧ Only [.lines, .attn] s (setLock i r s) := by
  refine ⟨by simp [setLock], fun j hj => ?_, rfl, ?_⟩
  · simp [setLock, line_setLine_ne _ _ hj]
  · intro p hp; cases p <;> simp_all [Part.same, setLock]

/-- A pour that ends (R19): the line goes to AFTER-RUN with its end reason, and nothing else changes. -/
theorem endPour_spec (i : LineNo) (reason : EndReason) (s : State) (p : PourCtx)
    (hp : (s.line i).pour = some p) : PourEnds i reason p s (endPour i reason s) := by
  have h := relamp_setLine i s (endedLine s.now reason (s.line i) p)
  have e : endPour i reason s = relamp i (s.setLine i (endedLine s.now reason (s.line i) p)) := by
    simp [endPour, hp, endedLine, tenMs, sat, elapsed, max16, msec, Nat.min_comm]
  rw [e]; exact h

/-! ## The link queue -/

theorem selectFrame_only (s : State) : Only [.link] s (selectFrame s) := by
  intro p hp; cases p <;> simp_all [Part.same, selectFrame]

/-- A request for a STATUS (R111): recorded unless in MUTE, and current at once when nothing else is. -/
theorem requestStatus_spec (s : State) (h : s.station ≠ .unconfigured) :
    StatusRequested s (requestStatus s) ∧ Only [.link] s (requestStatus s) := by
  constructor
  · unfold StatusRequested requestStatus
    cases hm : s.link.mute
    · simp only [Bool.false_or, beq_iff_eq, h, if_false]
      unfold selectFrame Link.chooseFrame
      cases hc : s.link.current <;> cases hk : s.link.changes <;> simp_all
    · simp
  · unfold requestStatus
    split
    · exact Only.refl _ _
    · refine Only.trans ?_ (selectFrame_only _)
      intro p hp; cases p <;> simp_all [Part.same]

/-! ## The journal, the arbiter and the Source View -/

/-- A write takes the next number, joins the tail, spends a slot and makes the fill test (R69, R76). -/
theorem writeRecord_spec (mk : BitVec 16 → Record) (s : State) :
    (writeRecord mk s).journal =
      ⟨s.journal.records ++ [mk s.journal.seq], s.journal.reserved - 1, s.journal.seq + 1⟩ ∧
    (writeRecord mk s).attn = (if s.journal.records.length + 1 = s.cfg.threshold
      then s.attn.set .journalLevel else s.attn) ∧
    Only [.journal, .attn] s (writeRecord mk s) := by
  by_cases h : s.journal.records.length + 1 = s.cfg.threshold <;> simp only [writeRecord, h, if_true,
    if_false] <;> refine ⟨by trivial, by trivial, ?_⟩ <;> intro p hp <;> cases p <;>
    simp_all [Part.same]

/-- An admission touches its line, the count of pours and the journal's reservations (R10). -/
theorem beginPour_only (i : LineNo) (kind : StartKind) (s : State) :
    Only [.lines, .pours, .journal] s (beginPour i kind s) := by
  unfold beginPour
  refine Only.trans ?_ ((relamp_only i _).mono (by simp))
  intro p hp; cases p <;> simp_all [Part.same]

theorem beginPour_others (i : LineNo) (kind : StartKind) (s : State) :
    OtherLines i s (beginPour i kind s) := by
  unfold beginPour
  refine OtherLines.trans ?_ (relamp_others i _)
  exact fun j hj => line_setLine_ne _ _ hj

/-- The service walk touches lines, the list, the count of pours and the journal's reservations
(R14). -/
theorem serveList_only (es : List StartEntry) (s : State) :
    Only [.lines, .starts, .pours, .journal] s (serveList es s) := by
  induction es generalizing s with
  | nil => exact Only.refl _ _
  | cons e rest ih =>
    unfold serveList
    split
    · exact ((refuseEntry_spec e.line .ready s).2.2.2.mono (by simp)).trans (ih _)
    · split
      · exact Only.refl _ _
      · exact (((removeStart_only e.line s).mono (by simp)).trans
          ((beginPour_only e.line e.kind _).mono (by simp))).trans (ih _)

theorem serve_only (s : State) : Only [.lines, .starts, .pours, .journal] s (serve s) :=
  serveList_only _ _

/-- The walk writes no record (R78). -/
theorem serveList_records (es : List StartEntry) (s : State) :
    (serveList es s).journal.records = s.journal.records ∧
      (serveList es s).journal.seq = s.journal.seq := by
  induction es generalizing s with
  | nil => exact ⟨rfl, rfl⟩
  | cons e rest ih =>
    unfold serveList
    split
    · have h := (refuseEntry_spec e.line .ready s).2.2.2 .journal (by simp)
      simp only [Part.same] at h
      exact ⟨(ih _).1.trans (by rw [h]), (ih _).2.trans (by rw [h])⟩
    · split
      · exact ⟨rfl, rfl⟩
      · have h : ∀ t, (beginPour e.line e.kind t).journal = { t.journal with
            reserved := t.journal.reserved + 1 } := by
          intro t
          unfold beginPour
          exact (relamp_only _ _) .journal (by simp)
        exact ⟨(ih _).1.trans (by rw [h]; rfl), (ih _).2.trans (by rw [h]; rfl)⟩

theorem lowTest_only (x : SourceNo) (s : State) : Only [.sources, .attn] s (lowTest x s) := by
  unfold lowTest
  cases s.remaining x <;> simp only
  · exact Only.refl _ _
  · split
    · exact ((setSource_only s x _).mono (by simp)).trans ((raise_only _ _).mono (by simp))
    · exact Only.refl _ _

theorem addOwn_only (x : SourceNo) (v : Nat) (s : State) : Only [.sources, .attn] s (addOwn x v s) :=
  ((setSource_only s x _).mono (by simp)).trans (lowTest_only x _)

theorem overLines_only {ps : List Part} {f : LineNo → State → State}
    (h : ∀ i s, Only ps s (f i s)) (is : List LineNo) (s : State) : Only ps s (overLines f is s) := by
  unfold overLines
  induction is generalizing s with
  | nil => exact Only.refl _ _
  | cons i rest ih => exact (h i s).trans (ih _)

theorem liftFoam_only (i : LineNo) (s : State) : Only [.lines] s (liftFoam i s) := by
  have hc : Only [.lines] s (if (s.line i).lock = .foamOut then clearLock i s else s) := by
    split
    · exact (clearLock_spec i s).2.2
    · exact Only.refl _ _
  unfold liftFoam
  simp only
  split
  · split
    · exact hc.trans (setLine_only _ _ _)
    · exact hc
  · exact hc

theorem newGeneration_only (x : SourceNo) (g : BitVec 8) (full : Nat) (e : Bool) (s : State) :
    Only [.lines, .sources, .attn] s (newGeneration x g full e s) := by
  unfold newGeneration relampSource
  refine Only.trans ?_ ((lowTest_only x _).mono (by simp))
  refine Only.trans ?_ ((overLines_only relamp_only _ _).mono (by simp))
  exact ((setSource_only s x _).mono (by simp)).trans
    ((overLines_only liftFoam_only _ _).mono (by simp))

theorem requestStatus_only (s : State) : Only [.link] s (requestStatus s) := by
  unfold requestStatus
  split
  · exact Only.refl _ _
  · refine Only.trans ?_ (selectFrame_only _)
    intro p hp; cases p <;> simp_all [Part.same]

theorem emptyEffects_only (x : SourceNo) (s : State) :
    Only [.lines, .starts, .link, .attn] s (emptyEffects x s) := by
  unfold emptyEffects relampSource refuseSource
  refine Only.trans ?_ ((overLines_only relamp_only _ _).mono (by simp))
  refine Only.trans ?_ (overLines_only (fun i s => ((refuseEntry_spec i .ready s).2.2.2.mono (by simp))) _ _)
  exact ((raise_only _ s).mono (by simp)).trans ((requestStatus_only _).mono (by simp))

theorem setEmpty_only (x : SourceNo) (s : State) :
    Only [.lines, .starts, .link, .attn, .sources] s (setEmpty x s) := by
  unfold setEmpty
  simp only
  split
  · exact Only.refl _ _
  · exact ((setSource_only s x _).mono (by simp)).trans ((emptyEffects_only x _).mono (by simp))

theorem adopt_only (x : SourceNo) (g : BitVec 8) (full : Nat) (e : Bool) (s : State) :
    Only [.lines, .starts, .link, .attn, .sources] s (adopt x g full e s) := by
  unfold adopt
  simp only
  split
  · exact ((newGeneration_only x g full e s).mono (by simp)).trans
      ((emptyEffects_only x _).mono (by simp))
  · exact (newGeneration_only x g full e s).mono (by simp)

theorem overLines_others {f : LineNo → State → State} (h : ∀ i s, OtherLines i s (f i s))
    (is : List LineNo) (s : State) (j : LineNo) (hj : j ∉ is) : (overLines f is s).line j = s.line j := by
  unfold overLines
  induction is generalizing s with
  | nil => rfl
  | cons i rest ih =>
    simp only [List.mem_cons, not_or] at hj
    exact (ih _ hj.2).trans (h i s j hj.1)

end Sys2Proof.Machine
end

