-- ==== Sys2Proof/Laws/Inputs.lean ====
section
/-! SUPPORT. What the input stages and the bits of the cellar link can do, said once: a level taken, a pin
seen for one unit of time, a character sent and read back. -/

namespace Sys2Proof.Machine

/-! ## Levels taken -/

theorem takeHandle_spec (i : LineNo) (closed : Bool) (s : State) :
    (takeHandle i closed s).line i = { s.line i with handle := .taken closed } ∧
      OtherLines i s (takeHandle i closed s) ∧ Only [.lines] s (takeHandle i closed s) :=
  ⟨by simp [takeHandle], setLine_others s i _, setLine_only s i _⟩

theorem takeKey_spec (i : LineNo) (k : Key) (s : State) :
    (takeKey i k s).line i = (s.line i).keyClosed k ∧ OtherLines i s (takeKey i k s) ∧
      Only [.lines] s (takeKey i k s) :=
  ⟨by simp [takeKey], setLine_others s i _, setLine_only s i _⟩

theorem takeMeter_spec (i : LineNo) (s : State) :
    (takeMeter i s).line i = { s.line i with meter := .taken true } ∧
      OtherLines i s (takeMeter i s) ∧ Only [.lines] s (takeMeter i s) :=
  ⟨by simp [takeMeter], setLine_others s i _, setLine_only s i _⟩

theorem takePin_only (p : CondPin) (level : Bool) (s : State) : Only [.clean] s (takePin p level s) :=
  modClean_only _ s

/-- A key taken closed changes nothing else of its line (R4). -/
@[simp] theorem keyClosed_state (l : Line) (k : Key) : (l.keyClosed k).state = l.state := by
  cases k <;> rfl

@[simp] theorem keyClosed_flashFrom (l : Line) (k : Key) :
    (l.keyClosed k).flashFrom = l.flashFrom := by
  cases k <;> rfl

@[simp] theorem keyClosed_orders (l : Line) (k : Key) : (l.keyClosed k).orders = l.orders := by
  cases k <;> rfl

@[simp] theorem keyClosed_pour (l : Line) (k : Key) : (l.keyClosed k).pour = l.pour := by
  cases k <;> rfl

@[simp] theorem keyClosed_remembered (l : Line) (k : Key) :
    (l.keyClosed k).remembered = l.remembered := by
  cases k <;> rfl

/-! ## Pins seen -/

/-- A pin that shows the level taken ends the hold; another level is held from when it first shows (R4,
R158). -/
theorem holdFrom_seen (taken pin : Bool) (held : Option Nat) (now : Nat) :
    holdFrom taken pin held now = heldSince taken pin held now := by
  unfold holdFrom heldSince
  by_cases h : pin = taken <;> cases held <;> simp [h]

/-- A portion key sees its pin (R4). -/
theorem watchKey_seen (d : Debounce) (pin : Bool) (now : Nat) :
    KeySeen d (watchKey d pin now) pin now := by
  unfold KeySeen watchKey Debounce.watch
  simp only [holdFrom_seen]
  cases h : heldSince d.level pin d.changed now <;> cases hl : d.level <;>
    simp_all [heldFor, towerHold, msec, Debounce.taken]

/-- MTRn sees its pin at a unit of time (R31). -/
theorem sample_seen (m : MeterInput) (pin : Bool) (now : Nat) :
    MeterSeen m (if now % meterTick = 0 then m.sample pin else m) pin now := by
  unfold MeterSeen MeterInput.sample meterTick
  by_cases h : now % 25 = 0 <;> by_cases hp : pin = m.high <;> cases hm : m.high <;>
    simp_all [MeterInput.taken]

/-- The receiver sees the level of the pair (R101). -/
theorem receiver_seen (r : Receiver) (level : Bool) (now : Nat) :
    ReceiverSeen r (r.watch level now) level now := by
  cases r with
  | wait => rfl
  | mark => rfl
  | busy since bits =>
    simp only [ReceiverSeen, Receiver.watch, bitTime, Nat.mul_comm]
    by_cases h : bits.length < 11 ∧ now = since + 4 * bits.length + 2 <;> simp_all

/-- The input stages touch the lines, the recipe's holds and the receiver, and nothing else. -/
theorem watchInputs_only (s : State) : Only [.lines, .link, .clean] s (watchInputs s) := by
  unfold watchInputs
  split
  · exact Only.refl _ _
  · intro p hp; cases p <;> simp_all [Part.same]

theorem watchInputs_line (s : State) (i : LineNo) (h : s.rstnLow = false) :
    (watchInputs s).line i = (s.line i).watch i s.now := by
  simp [watchInputs, h, State.line]

/-- What a line is, apart from its inputs, no pin changes. -/
theorem watch_state (l : Line) (i : LineNo) (now : Nat) :
    (l.watch i now).state = l.state ∧ (l.watch i now).flashFrom = l.flashFrom ∧
      (l.watch i now).pour = l.pour := ⟨rfl, rfl, rfl⟩

/-! ## Characters -/

/-- A character's bits are read back as the character, without error (R100, R101). -/
theorem charValue_charBits : ∀ b : Byte, charValue (charBits b) = b ∧ charError (charBits b) = false := by
  decide +kernel

/-- A wrong stop bit or a wrong parity bit is an error (R101). -/
theorem charError_stop : ∀ b : Byte,
    charError (false :: dataBits b ++ [oddOnes (dataBits b), false]) = true ∧
      charError (false :: dataBits b ++ [!oddOnes (dataBits b), true]) = true := by
  decide +kernel

/-- Every character is eleven bits (R100). -/
theorem charBits_length (b : Byte) : (charBits b).length = 11 := by
  simp [charBits, dataBits]

/-! ## The receiver of an event, and the end of an attempt -/

theorem settleReceiver_only (c : Instr) (s : State) : Only [.link] s (settleReceiver c s) := by
  cases c <;> first | exact Only.refl _ _ | exact modLink_only _ s

/-- After a character the receiver is ready exactly when the stop bit was at mark (R101). -/
@[simp] theorem afterChar_busy (since : Nat) (bits : List Bool) :
    (Receiver.busy since bits).afterChar = if bits.getD 10 false then .mark else .wait := rfl

/-- A missing character ends the drive (R114). -/
theorem ownLevel_missing (s : State) (h : missingChar s = true) : ownLevel s = none := by
  unfold ownLevel; split <;> simp [h]

@[simp] theorem release_tx (t : TxFrame) (n : Nat) (k : Link) : (release t n k).tx = none := rfl
@[simp] theorem release_rx (t : TxFrame) (n : Nat) (k : Link) : (release t n k).rx = .discard := rfl
@[simp] theorem release_mute (t : TxFrame) (n : Nat) (k : Link) : (release t n k).mute = k.mute := rfl
@[simp] theorem release_changes (t : TxFrame) (n : Nat) (k : Link) :
    (release t n k).changes = k.changes := rfl
@[simp] theorem release_statusReq (t : TxFrame) (n : Nat) (k : Link) :
    (release t n k).statusReq = k.statusReq := rfl
@[simp] theorem release_current (t : TxFrame) (n : Nat) (k : Link) :
    (release t n k).current = k.current := rfl

/-- The idle time counts from the later of the end last known and the end of an own character (R101). -/
theorem idleAfter_max (seen : Option Nat) (ends : Nat) :
    idleAfter seen ends = max (seen.getD 0) ends := by
  cases seen <;> simp [idleAfter]

@[simp] theorem release_idleFrom (t : TxFrame) (n : Nat) (k : Link) :
    (release t n k).idleFrom = some (max (k.idleFrom.getD 0) (t.began + 44 * n)) := by
  simp [release, idleAfter_max, charEnd, bitTime, Nat.mul_comm]

end Sys2Proof.Machine
end

