-- ==== Sys2Proof/Tests/Slice0.lean ====
section
/-! SUPPORT. Tests: ill-formed operands, the worked cases of the spec, and for every obligation with
hypotheses a concrete state and operands that meet them, clause by clause. -/

namespace Sys2Proof.Tests

open Sys2Proof Sys2Proof.Machine

/-! ## Ill-formed operands are refused (WellFormed) -/

theorem test_wf_image_too_long (img : List Byte) (h : img.length = 65536) :
    (Instr.configure img).wf = false := by
  simp [Instr.wf, h]

theorem test_wf_read_period_empty : (Instr.readPeriod 0).wf = false := by decide

theorem test_wf_station_zero : (Instr.peerExpiry 0).wf = false := by decide

theorem test_wf_station_33 : (Instr.peerExpiry 33).wf = false := by decide

theorem test_wf_frame_station_zero :
    (Instr.validFrameArrival ⟨0, .change ⟨0, 0, 0⟩⟩).wf = false := by decide

theorem test_wf_nine_entries : (Instr.validFrameArrival
    ⟨1, .status ⟨.running, 0, .none, 0, List.replicate 9 ⟨0, 0, false, 0, 0⟩⟩⟩).wf = false := by
  decide

/-! ## Select periods written out from R195 -/

theorem test_decode_start : decodeSelect [0x11, 0, 0] = some .start := by decide

theorem test_decode_order :
    decodeSelect [0x40, 0, 5, 3, 0x01, 0xF5, 0x12, 0x7A] = some (.order 3 501 4730) := by decide

theorem test_decode_short_payload :
    decodeSelect [0x41, 0, 3, 3, 0x01] = some .commandNotExecuted := by decide

theorem test_decode_extra_bytes : decodeSelect [0x42, 0, 1, 7, 0xFF] = some (.pourStop 7) := by decide

theorem test_decode_read : decodeSelect [0, 0xFF, 0xFF] = some (.readPeriod 3) := by decide

/-! ## Worked cases of the spec -/

/-- Chapter 2.4, a free pour: B = 1196 gives V = 469,418 and Vr = 4694. -/
theorem test_volume_free_pour :
    volumeMicro 400 (-1311) 6 1196 = 469418 ∧ pourVolume 400 (-1311) 6 1196 = 4694 := by decide

/-- Chapter 2.4, creep carried: 37 pulses give 14.5 mL. -/
theorem test_volume_creep : pourVolume 400 (-1311) 0 37 = 145 := by decide

/-- Chapter 2.5, a portion target: Pt = 4730 gives T = 1206, and 473.3 mL there. -/
theorem test_portion_target :
    pulseTarget 400 (-1311) 6 4730 = 1206 ∧ pourVolume 400 (-1311) 6 1206 = 4733 := by decide

/-- Chapter 2.5, an offset larger than the portion: T = 1, and 20.4 mL. -/
theorem test_portion_offset :
    pulseTarget 400 0 200 100 = 1 ∧ pourVolume 400 0 200 1 = 204 := by decide

/-- Chapter 2.6: Va = 4750 gives −547, and Va = 6000 gives 16,555. -/
theorem test_new_gain :
    newGain 469418 (-1311) 4750 = -547 ∧ newGain 469418 (-1311) 6000 = 16555 := by decide

/-- Chapter 8.2: codes 1850, 1900, 4000 and 100 at Ms = 410, Os = −700. -/
theorem test_tower_temp :
    [1850, 1900, 4000, 100].map (fun c => towerTemp c 410 (-700)) = [41, 61, 800, -400] := by decide

/-- Chapter 8.3 and 8.4: demand below the setting, and a starved tower. -/
theorem test_demand_and_grant : demandOf (-5) 64 0 22 = 0 ∧ demandOf (-5) 64 1 22 = 2 ∧
    demandOf 28 64 4 22 = 200 ∧ grantOf 200 700 600 = 171 ∧ grantOf 200 790 600 = 151 := by decide

/-- R115: the waits of station 5. -/
theorem test_waits :
    [1, 2, 3, 4, 5, 6, 7].map (accessWait 5) = [228, 338, 448, 558, 668, 74, 184] := by decide

/-! ## Small states -/

/-- A line part of the worked cases. -/
def lineOf (x : SourceNo) (m : LineMode) : LineCfg :=
  { source := x, mode := m, k := 400, g := -1311, oq := 6, fint := 300, foamRun := 4, noFlow := 20,
    leakLimit := 2, presetA := 3300, presetB := 4730 }

/-- A step that tests CLEAR, with FAUCETS, BEER-OUT and step pulses 1. -/
def stepOf (next faultNext : StepTarget) (limit : Nat) : StepRec :=
  { outputs := { Outputs.none with faucets := true, beerOut := true }, dwell := 20, limit,
    kind := .allSet, mask := { CondFlags.none with clear := true }, pattern := .none, pulses := 1,
    next, faultNext }

/-- Station 7 with four FREE lines on source 4, one ORDERED line on source 3, one line on source 2. -/
def cfg : Cfg :=
  { Cfg.blank with
    station := 7, lineCount := 6, announcePeriod := 250, cap := 600, tset := 30, twarm := 70,
    hyst := 20, dgain := 64, dpour := 22, dfault := 120, ms := 410, os := -700, pace := 3,
    maxPour := 60, holdWait := 6, cleanSlots := 2, runLimit := 60, threshold := 56,
    lines := #v[lineOf 4 .free, lineOf 4 .free, lineOf 4 .free, lineOf 3 .ordered, lineOf 4 .free,
      lineOf 2 .free, .blank, .blank],
    lowThreshold := Vector.replicate 16 50000,
    steps := [stepOf (.step 1) (.step 1) 120, stepOf .leave .leave 120, stepOf (.step 1) (.step 0) 20,
      stepOf .leave .leave 20] }

/-- A configured line of a RUNNING station at rest. -/
def idle : Line := { Line.reset with state := .ready, lamp := .steady, lampOn := true }

/-- The station RUNNING, at rest, with the port ready. -/
def tower : State :=
  { State.reset with
    station := .running, config := some cfg, port := { Port.reset with rdy := true },
    lines := #v[idle, idle, idle, idle, idle, idle, .reset, .reset],
    link := { Link.reset with rx := .hunt, idleFrom := some 0, announceFrom := some 0 } }

/-- The same station UNCONFIGURED, and STOPPED. -/
def blank : State := { State.reset with port := { Port.reset with rdy := true } }
def shut : State :=
  { tower with station := .stopped, lines := Vector.replicate 8 .reset }

/-- The state after a command, for building a test's start. -/
def after (c : Instr) (s : State) : State :=
  match exec c s with
  | .next t => t
  | _ => s

/-- A pour context. -/
def ctx (reason : Option EndReason) : PourCtx :=
  { newPour tower 0 .handle with
    total := 1210, foam := 14, endReason := reason, duration := reason.map fun _ => 900 }

/-- Line 0 with a pour, in a line state. -/
def pouring (st : LineState) (p : PourCtx) : State :=
  { tower.setLine 0 { idle with state := st, pour := some p } with
    pours := 1, journal := { tower.journal with reserved := 1 } }

/-- Line 3 with orders queued. -/
def ordered (os : List Order) : State := tower.setLine 3 { idle with orders := os }

/-- Line 5 under a cleaning run in a step and a phase. -/
def cleaning (step : Nat) (phase : Phase) (clear : Bool) : State :=
  { tower.setLine 5 { idle with state := .cleaning, lamp := .alternating, valve := .hold } with
    journal := { tower.journal with reserved := 2 },
    clean := { Cleaning.reset with
      runState := .running, runNumber := 1, job := some ⟨1, 0x20, 0⟩, slots := 2, age := 2,
      progress := some ⟨step, phase, 0, 0⟩, flags := { CondFlags.none with clear },
      out := (stepOf .leave .leave 0).outputs } }

/-- Line 5 RESERVED for a run that claims a slot. -/
def claiming : State :=
  { tower.setLine 5 { idle with state := .reserved, lamp := .alternating } with
    journal := { tower.journal with reserved := 2 },
    clean := { Cleaning.reset with
      runState := .claiming, runNumber := 1, job := some ⟨1, 0x20, 0⟩, slots := 2, age := 1 } }

/-- A CHANGE frame of station 3 for source 4, and a STATUS of station 3. -/
def change (gen : Byte) : LinkFrame := ⟨3, .change ⟨4, gen, 500000⟩⟩
def status (entries : List LinkEntry) : StatusBody := ⟨.running, 100, .none, 0, entries⟩

/-- The station with a peer record of station 3. -/
def withPeer (es : List LinkEntry) : State :=
  tower.setPeer 2 (some { fresh := true, lastAt := 0, body := status es })

/-! ## Tests of one step -/

/-- R1, R10, R16: a press on a READY line opens its valve. -/
theorem test_press_pours :
    ((after (.handlePress 0) tower).line 0).state = .pouring ∧
    vlvPin (after (.handlePress 0) tower) 0 = .full := by decide

/-- R17: the pulse that reaches the target ends the pour TARGET. -/
theorem test_pulse_target :
    (((after (.meterPulse 0) (pouring .pouring { ctx none with pulseTarget := some 1197 })).line
      0).pour.map PourCtx.endReason) = some (some .target) := by decide

/-- R22 with the worked free pour: the record carries 469.4 mL, and own cumulative grows by it. -/
theorem test_completion :
    ((after (.pourCompletion 0) (pouring .afterRun (ctx (some .release)))).source 4).own = 4694 := by
  decide

/-- R24: the second creep pulse on a READY line locks it LEAK. -/
theorem test_leak :
    ((after (.meterPulse 1) (after (.meterPulse 1) tower)).line 1).lock = .leak := by decide

/-- Chapter 2.6: the calibration of the worked free pour is answered with −547. -/
theorem test_calibrate :
    ((after (.calibrate 0 4750)
      (after (.pourCompletion 0) (pouring .afterRun (ctx (some .release))))).lineCfg 0).g = -547 := by
  decide

/-- R88: a view at 250 takes generation 3 as newer, and a view at 10 takes 140 as older. -/
theorem test_generations : genOrder 3 250 = .newer ∧ genOrder 140 10 = .older := by decide

/-- R54: a repeated tag on a full queue is DUPLICATE, a new one QUEUE-FULL. -/
theorem test_order_duplicate_first :
    let s := ordered [⟨1, 100⟩, ⟨2, 100⟩, ⟨3, 100⟩, ⟨4, 100⟩]
    ((after (.order 3 4 100) s).port.preparing.map Response.status) = some .duplicate ∧
    ((after (.order 3 5 100) s).port.preparing.map Response.status) = some .queueFull := by decide

/-- R179: the third success report of a claim with no peers enters RUNNING. -/
theorem test_claim_runs :
    (evaluateClaim { claiming with clean := { claiming.clean with age := 2 } }).clean.runState =
      .running := by decide

/-- R100: A5h is sent as start bit, 10100101 from the least significant bit, parity 0, stop bit; R101: it is
read back from those bits, and a false parity bit is an error. -/
theorem test_character_bits :
    charBits 0xA5 = [false, true, false, true, false, false, true, false, true, false, true] ∧
    charValue (charBits 0x53) = 0x53 ∧ charError (charBits 0x53) = false ∧
    charError (false :: dataBits 0x53 ++ [true, true]) = true := by decide

/-- R106: a STATUS whose clean state is no code of R196 fails the content checks. -/
theorem test_content_clean : parseStatus [1, 0, 3, 0, 0] = none ∧
    (parseStatus [1, 0, 2, 0, 0]).isSome = true := by decide

/-- R4: a level held for 20 ms is due, and a return before that discards it. -/
theorem test_debounce :
    let d := (Debounce.taken false).watch true 5
    d.due 10004 = false ∧ d.due 10005 = true ∧ (d.watch false 9000).due 10005 = false := by decide

/-- R31: a level shown by one sample is discarded, by two it is taken. -/
theorem test_meter_samples :
    let m := MeterInput.taken false
    ((m.sample true).sample false).seen = 0 ∧ ((m.sample true).sample true).seen = 2 ∧
    ((MeterInput.taken true).sample false).high = true ∧
    (((MeterInput.taken true).sample false).sample false).high = false := by decide

/-! ## The states used below meet the invariants -/

theorem test_tower_station : StationOk tower := by
  refine ⟨?_, ?_, ?_, ?_, ?_, ?_, ?_⟩ <;> decide

theorem test_cleaning_station : StationOk (cleaning 0 .dwell false) := by
  refine ⟨?_, ?_, ?_, ?_, ?_, ?_, ?_⟩ <;> decide

/-! ## The hypotheses of the obligations are met, clause by clause -/

theorem test_hyp_StepRunsFrontCommand :
    ({ tower with pending := [.start] } : State).pending = .start :: [] := by decide

theorem test_hyp_EmptyQueueStep : blank.pending = [] ∧ tower.pending = [] ∧ due tower = none ∧
    due { State.reset with now := 1000 } = some .portReadyAfterReset ∧
    due { tower with link := { tower.link with recv := .busy 0 (charBits 0xA5) } } =
      some (.characterTaken 0xA5 false) := by decide

theorem test_hyp_RstnResets : (after .rstnAssert tower).rstnLow = true ∧
    Instr.start ≠ .rstnRelease := by decide

theorem test_hyp_NotExecuted :
    let busy := { tower with port := { tower.port with rdy := false } }
    let armed := { tower with port := { tower.port with resetArm := .armed 0 } }
    tower.rstnLow = false ∧ fromTerminal .start = true ∧ fromTerminal .commandNotExecuted = true ∧
    busy.port.rdy = false ∧ armed.port.rdy = true ∧ armed.port.resetArm.isArmed = true := by decide

theorem test_hyp_PortPeriods : tower.rstnLow = false ∧ 1 ≤ 1 ∧ tower.accepts ∧
    tower.port.preparing = none ∧
    (after .start tower).port.preparing = some ⟨.badState, false, []⟩ := by decide

theorem test_hyp_ResetCommandActs : tower.accepts ∧ 1 ≤ 1 := by decide

/-- The bits of a select period, most significant bit first (R188): UNLOCK of L3 is 43h 00h 01h 03h, and
a select period without a full byte is none. -/
theorem test_select_bits :
    portBits 0x43 = [false, true, false, false, false, false, true, true] ∧
    decodeSelectBits ([0x43, 0, 1, 3].flatMap portBits) = some (.unlock 3) ∧
    decodeSelectBits (portBits 0x43).tail = none := by decide

theorem test_hyp_SelectRoundTrip : (Instr.order 3 501 4730).wf = true ∧
    encodeSelect (.order 3 501 4730) = some [0x40, 0, 5, 3, 0x01, 0xF5, 0x12, 0x7A] ∧
    (Instr.readPeriod 2).wf = true ∧ encodeSelect (.readPeriod 2) = some [0, 0] := by decide

theorem test_hyp_LinkCharactersRoundTrip : (change 1).wf = true ∧
    (⟨3, .status (status [])⟩ : LinkFrame).wf = true ∧ tower.rstnLow = false ∧
    tower.link.rx = .hunt := by decide

theorem test_hyp_SelectPeriodsJudged : (0x42 : Byte) ≠ 0 ∧
    ([] : List Byte).length < (be16 0 1).toNat ∧ ([7] : List Byte).length = (be16 0 1).toNat ∧
    0x71 ∉ [0x10, 0x11, 0x12, 0x13, 0x20, 0x21, 0x22, 0x23, 0x24, 0x25, 0x30, 0x40, 0x41, 0x42, 0x43,
      0x44, 0x50, 0x60, 0x61, 0x70] := by decide

theorem test_hyp_ReadingCommands : tower.accepts ∧ tower.station ≠ .unconfigured ∧ blank.accepts ∧
    blank.station = .unconfigured ∧ 8 ≤ (8 : Byte).toNat ∧ 16 ≤ (16 : Byte).toNat ∧
    33 ≤ (33 : Byte).toNat ∧ (0 : Byte).toNat = 0 ∧ (7 : Byte).toNat = (7 : LineNo).val ∧
    (15 : Byte).toNat = (15 : SourceNo).val ∧ (32 : Byte).toNat = (31 : Fin 32).val + 1 := by decide

theorem test_hyp_ConfigureCommand : tower.accepts ∧ tower.station ≠ .unconfigured ∧ blank.accepts ∧
    blank.station = .unconfigured ∧ imageFault [] = some 0 ∧ blank.link.mute = false ∧
    blank.link.changes = [] ∧ blank.link.current = none := by decide

/-- An image that passes every check, laid out by hand from R198: line 0 FREE on source 4, the low threshold
of source 1 at 50000, one step with WATER and BEER-OUT. -/
def image : List Byte :=
  [1, 1, 0, 250, 0, 1, 0, 0, 0, 0, 5, 0, 0, 0, 0, 1, 0xFD, 0x44, 1, 5, 0, 1, 10, 16, 1, 0, 0] ++
    [4, 0, 0x01, 0x90, 0xFA, 0xE1, 0, 6, 0x01, 0x2C, 4, 20, 2, 0x0C, 0xE4, 0x12, 0x7A] ++
    List.replicate 123 0 ++ [0, 0, 0xC3, 0x50] ++ List.replicate 56 0 ++
    [0x41, 0, 20, 0, 120, 2, 0x09, 0x01, 0, 1, 0, 255] ++ List.replicate 276 0

/-- The items stand where R198 lays them out. -/
theorem test_image_loaded :
    let c := loadCfg image
    c.os = -700 ∧ c.lines[0] = lineOf 4 .free ∧ c.lowThreshold[1] = 50000 ∧
    c.steps = [{ outputs := { Outputs.none with water := true, beerOut := true }, dwell := 20,
                 limit := 120, kind := .pattern, pulses := 1, next := .step 0, faultNext := .leave,
                 mask := { CondFlags.none with flow := true, clear := true },
                 pattern := { CondFlags.none with flow := true } }] := by decide +kernel

theorem test_hyp_ConfigureCommand_image : imageFault image = none := by decide +kernel

theorem test_hyp_ImageChecked : ([] : List Byte).length ≠ 515 ∧ image.length = 515 ∧
    imageFault image = none ∧ (0 :: image.tail).length = 515 ∧
    imageFault (0 :: image.tail) = some 1 := by decide +kernel

theorem test_hyp_StartCommand : shut.accepts ∧ shut.station = .stopped ∧ tower.accepts ∧
    tower.station ≠ .stopped := by decide

theorem test_hyp_StopCommand : tower.accepts ∧ tower.station = .running ∧ StationOk tower ∧
    tower.clean.runState = .idle ∧ StationOk (cleaning 0 .dwell false) ∧
    (cleaning 0 .dwell false).accepts ∧ (cleaning 0 .dwell false).clean.runState ≠ .idle ∧
    shut.accepts ∧ shut.station ≠ .running := by
  refine ⟨by decide, by decide, test_tower_station, by decide, test_cleaning_station, ?_⟩
  decide

theorem test_hyp_OrderCommand : tower.accepts ∧ tower.station ≠ .unconfigured ∧ blank.accepts ∧
    blank.station = .unconfigured ∧ 8 ≤ (8 : Byte).toNat ∧ (3 : Byte).toNat = (3 : LineNo).val ∧
    (ordered [⟨1, 100⟩]).accepts := by decide

theorem test_hyp_CancelCommand :
    let s := ordered [⟨1, 100⟩]
    let p := { ctx none with mode := .order, tag := some 2 }
    let inHandPouring := tower.setLine 3 { idle with state := .pouring, pour := some p }
    let inHandAfter := tower.setLine 3 { idle with state := .afterRun, pour := some p }
    s.accepts ∧ s.station ≠ .unconfigured ∧ (3 : Byte).toNat = (3 : LineNo).val ∧
    blank.accepts ∧ blank.station = .unconfigured ∧ 8 ≤ (8 : Byte).toNat ∧
    (s.lineCfg 0).mode = .free ∧ s.configured 3 = true ∧ (s.lineCfg 3).mode = .ordered ∧
    (1 : BitVec 16) ∈ (s.line 3).orders.map Order.tag ∧
    (5 : BitVec 16) ∉ (s.line 3).orders.map Order.tag ∧ inHand s 3 ≠ some 5 ∧
    (inHandPouring.accepts ∧ (2 : BitVec 16) ∉ (inHandPouring.line 3).orders.map Order.tag ∧
      inHand inHandPouring 3 = some 2 ∧ (inHandPouring.line 3).state = .pouring ∧
      (inHandPouring.line 3).pour = some p) ∧
    inHandAfter.accepts ∧ inHand inHandAfter 3 = some 2 ∧
    (inHandAfter.line 3).state ≠ .pouring := by decide

theorem test_hyp_PourStopCommand :
    let s := pouring .pouring (ctx none)
    let w := tower.setLine 0 { idle with state := .waiting }
    let a := pouring .afterRun (ctx (some .noFlow))
    s.accepts ∧ s.station = .running ∧ (0 : Byte).toNat = (0 : LineNo).val ∧ s.configured 0 = true ∧
    (s.line 0).state = .pouring ∧ (s.line 0).pour = some (ctx none) ∧
    w.accepts ∧ (w.line 0).state = .waiting ∧ a.accepts ∧ (a.line 0).state = .afterRun ∧
    (tower.line 0).state = .ready ∧ tower.configured 6 = false ∧ (6 : Byte).toNat = (6 : LineNo).val ∧
    8 ≤ (8 : Byte).toNat ∧ shut.accepts ∧ shut.station ≠ .running := by decide

theorem test_hyp_UnlockCommand :
    let s := tower.setLine 0 { idle with state := .locked, lock := .leak }
    s.accepts ∧ s.station ≠ .unconfigured ∧ (0 : Byte).toNat = (0 : LineNo).val ∧
    s.configured 0 = true ∧ (s.line 0).lock ≠ .clear ∧ (s.line 1).lock = .clear ∧
    s.configured 1 = true ∧ s.configured 6 = false ∧ blank.accepts ∧
    blank.station = .unconfigured ∧ 8 ≤ (8 : Byte).toNat := by decide

theorem test_hyp_CalibrateCommand :
    let r := lastPourOf (ctx (some .release))
    let s := tower.setLine 0 { idle with lastPour := some r }
    s.accepts ∧ s.station ≠ .unconfigured ∧ (0 : Byte).toNat = (0 : LineNo).val ∧
    s.configured 0 = true ∧ s.configured 6 = false ∧ 1 ≤ (1 : BitVec 32).toNat ∧
    (2000000 : BitVec 32).toNat ≤ 2000000 ∧ 2000000 < (2000001 : BitVec 32).toNat ∧
    (s.line 1).lastPour = none ∧ (s.line 0).lastPour = some r ∧ s.config = some cfg := by decide

theorem test_hyp_TakeRecordCommand :
    let r := Record.waste ⟨0, 0, 0, 0, 0, 1, 1, 1⟩
    let s := { tower with journal := { tower.journal with records := [r] } }
    let w := { s.setLine 0 { idle with state := .waiting } with starts := [⟨0, .handle, none⟩] }
    s.accepts ∧ s.station ≠ .unconfigured ∧ s.journal.records = r :: [] ∧ s.starts = [] ∧
    w.accepts ∧ w.journal.records = r :: [] ∧ w.starts ≠ [] ∧
    tower.accepts ∧ tower.journal.records = [] ∧ blank.accepts ∧ blank.station = .unconfigured := by
  decide

/-- The layout of R197, by hand: CLEAN 7 of run 23, 300 s, entry 2, lines L0 and L3, FAILED at step 5. -/
theorem test_record_bytes :
    recordBytes (.clean ⟨7, 1000, 300, 23, 2, 9, .failed, some 5⟩) =
      [0, 7, 3, 8, 0, 0, 3, 0xE8, 1, 0x2C, 0, 23, 2, 9, 1, 5] ∧
    (Record.clean ⟨7, 1000, 300, 23, 2, 9, .failed, some 5⟩).chars =
      [0, 7, 3, 8, 0, 0, 3, 0xE8, 1, 0x2C, 0, 23, 2, 9, 1, 5] := by decide

/-- The picture of R58, by hand: no outcome, no order in hand, one order, tag 501 and 473.0 mL. -/
theorem test_picture :
    queuePicture (ordered [⟨501, 4730⟩]) 3 none = [0, 0, 1, 0x01, 0xF5, 0, 0, 0x12, 0x7A] := by decide

theorem test_hyp_ServiceWalk :
    let s := { tower with starts := [⟨0, .handle, none⟩, ⟨1, .keyA, some 0⟩] }
    let e := s.setSource 4 { SourceRec.reset with empty := true }
    let h := { s with cool := { s.cool with warmHold := true } }
    (s.starts.map StartEntry.line).Nodup ∧ s.starts = ⟨0, .handle, none⟩ :: [⟨1, .keyA, some 0⟩] ∧
    ¬ Unstartable s 0 ∧ ¬ Held s ∧ Unstartable e 0 ∧ (e.starts.map StartEntry.line).Nodup ∧
    ¬ Unstartable h 0 ∧ Held h ∧ (tower.starts.map StartEntry.line).Nodup ∧ tower.starts = [] := by
  decide

theorem test_hyp_SourceChangeCommand :
    let m := { tower with link := { tower.link with mute := true } }
    let f := { tower with link := { tower.link with changes := List.replicate 4 ⟨0, 0, 0⟩ } }
    tower.accepts ∧ tower.station ≠ .unconfigured ∧ (4 : Byte).toNat = (4 : SourceNo).val ∧
    tower.link.mute = false ∧ tower.link.changes.length < 4 ∧ m.accepts ∧ m.link.mute = true ∧
    f.accepts ∧ f.link.changes.length ≥ 4 ∧ 16 ≤ (16 : Byte).toNat ∧ blank.accepts ∧
    blank.station = .unconfigured := by decide

theorem test_hyp_ClearMuteCommand :
    let m := { tower with link := { tower.link with mute := true } }
    m.accepts ∧ m.station ≠ .unconfigured ∧ m.link.mute = true ∧ LinkOk m ∧
    tower.accepts ∧ tower.link.mute = false := by decide

theorem test_hyp_CleanStartCommand :
    let full := { tower with journal := { tower.journal with reserved := 63 } }
    let m := { tower with link := { tower.link with mute := true } }
    tower.accepts ∧ tower.station = .running ∧ tower.clean.runState = .idle ∧
    tower.link.mute = false ∧ (linesOf 0x21).length = 2 ∧
    ¬ (((1 : Byte) ≠ 1 ∧ (1 : Byte) ≠ 2) ∨ (0x21 : Byte) = 0 ∨
      ∃ i ∈ linesOf 0x21, tower.configured i = false) ∧
    tower.journal.records.length + tower.journal.reserved + (1 + (linesOf 0x21).length) ≤ 64 ∧
    full.accepts ∧
    full.journal.records.length + full.journal.reserved + (1 + (linesOf 0x21).length) > 64 ∧
    m.accepts ∧ m.link.mute = true ∧ (0 : Byte) ≠ 1 ∧ (0 : Byte) ≠ 2 ∧
    (cleaning 0 .dwell false).accepts ∧ (cleaning 0 .dwell false).clean.runState ≠ .idle := by
  decide

theorem test_claiming_station : StationOk claiming := by
  refine ⟨?_, ?_, ?_, ?_, ?_, ?_, ?_⟩ <;> decide

theorem test_hyp_CleanAbortCommand : claiming.accepts ∧ claiming.station = .running ∧
    StationOk claiming ∧ claiming.clean.job = some ⟨1, 0x20, 0⟩ ∧
    (claiming.clean.runState = .preparing ∨ claiming.clean.runState = .claiming) ∧
    tower.accepts ∧ tower.clean.runState = .idle := by
  refine ⟨by decide, by decide, test_claiming_station, ?_⟩; decide

/-- A preparing run whose one line still pours. -/
def preparing : State :=
  { tower.setLine 5 { idle with state := .pouring, pour := some (ctx none), cleanMark := true } with
    pours := 1, journal := { tower.journal with reserved := 3 },
    clean := { Cleaning.reset with
      runState := .preparing, runNumber := 1, job := some ⟨1, 0x20, 0⟩, slots := 2 } }

theorem test_hyp_CleanAbortCommand_preparing : StationOk preparing ∧ preparing.accepts ∧
    preparing.clean.runState = .preparing := by
  refine ⟨?_, by decide, by decide⟩
  refine ⟨?_, ?_, ?_, ?_, ?_, ?_, ?_⟩ <;> decide

theorem test_hyp_StopCommand_run : claiming.accepts ∧ StationOk claiming ∧ preparing.accepts ∧
    StationOk preparing ∧ claiming.clean.job = some ⟨1, 0x20, 0⟩ ∧
    preparing.clean.job = some ⟨1, 0x20, 0⟩ :=
  ⟨by decide, test_claiming_station, test_hyp_CleanAbortCommand_preparing.2.1,
    test_hyp_CleanAbortCommand_preparing.1, by decide, by decide⟩

theorem test_hyp_RunEnd :
    let s := cleaning 1 .dwell true
    let u := cleaning 1 .testing false
    let v := cleaning 3 .dwell false
    (s.rstnLow = false ∧ s.station = .running ∧ s.accepts ∧ s.clean.runState = .running ∧
      s.clean.job = some ⟨1, 0x20, 0⟩ ∧ s.clean.progress = some ⟨1, .dwell, 0, 0⟩ ∧
      (s.stepAt 1).limit ≠ (s.stepAt 1).dwell ∧
      advanceTest (s.stepAt 1) s.clean.flags = true ∧ (s.stepAt 1).next = .leave) ∧
    (u.rstnLow = false ∧ u.clean.progress = some ⟨1, .testing, 0, 0⟩ ∧ (u.stepAt 1).limit ≠ 0 ∧
      (u.stepAt 1).faultNext = .leave) ∧
    v.rstnLow = false ∧ v.clean.progress = some ⟨3, .dwell, 0, 0⟩ ∧
    (v.stepAt 3).limit = (v.stepAt 3).dwell ∧ (v.stepAt 3).faultNext = .leave ∧
    advanceTest (v.stepAt 3) v.clean.flags = false := by decide

theorem test_hyp_RunEnd_station : StationOk (cleaning 1 .dwell true) ∧
    StationOk (cleaning 1 .testing false) ∧ StationOk (cleaning 3 .dwell false) := by
  refine ⟨?_, ?_, ?_⟩ <;> refine ⟨?_, ?_, ?_, ?_, ?_, ?_, ?_⟩ <;> decide

theorem test_hyp_Admission :
    let s := ordered [⟨1, 100⟩]
    (tower.rstnLow = false ∧ tower.station = .running ∧ tower.configured 0 = true ∧
      (tower.line 0).state = .ready ∧ (tower.source (tower.lineCfg 0).source).empty = false ∧
      ¬ Held tower ∧ tower.starts = [] ∧ (tower.lineCfg 0).mode = .free) ∧
    s.rstnLow = false ∧ s.station = .running ∧ s.configured 3 = true ∧ (s.line 3).state = .ready ∧
    (s.source (s.lineCfg 3).source).empty = false ∧ ¬ Held s ∧ s.starts = [] ∧
    (s.lineCfg 3).mode = .ordered ∧ (s.line 3).orders = ⟨1, 100⟩ :: [] := by decide

theorem test_hyp_Parking :
    let w := { ordered [⟨1, 100⟩] with cool := { Cooling.reset with warmHold := true } }
    let f := { tower with journal := { tower.journal with reserved := 64 } }
    let p := { tower with cool := { Cooling.reset with starved := true }, pours := 3 }
    let q := { tower.setLine 1 { idle with state := .waiting } with starts := [⟨1, .handle, none⟩] }
    let h := { w with config := some { cfg with holdWait := 0 } }
    w.rstnLow = false ∧ w.station = .running ∧ w.configured 0 = true ∧ (w.line 0).state = .ready ∧
    (w.source (w.lineCfg 0).source).empty = false ∧ Held w ∧
    (w.lineCfg 0).mode = .free ∧ (w.line 3).state = .ready ∧ (w.line 3).orders ≠ [] ∧
    w.cfg.holdWait ≠ 0 ∧ h.cfg.holdWait = 0 ∧ Held f ∧ Held p ∧ q.starts ≠ [] ∧
    (q.line 0).state = .ready := by decide

theorem test_hyp_PressesNotAdmitted :
    let e := tower.setSource 4 { SourceRec.reset with empty := true }
    let at_ := fun st : LineState => (tower.setLine 0 { idle with state := st }).line 0
    tower.rstnLow = false ∧ tower.configured 6 = false ∧ tower.configured 3 = true ∧
    (tower.lineCfg 3).mode = .ordered ∧ (tower.line 3).state = .ready ∧
    (tower.line 3).orders = [] ∧ (e.line 0).state = .ready ∧
    (e.source (e.lineCfg 0).source).empty = true ∧ (e.lineCfg 0).mode = .free ∧
    (∀ st, (at_ st).state = st) ∧
    ((pouring .pouring (ctx none)).line 0).state = .pouring ∧
    ((pouring .afterRun (ctx (some .release))).line 0).state = .afterRun ∧
    ((pouring .afterRun (ctx (some .release))).line 0).remembered = none := by
  refine ⟨by decide, by decide, by decide, by decide, by decide, by decide, by decide, by decide,
    by decide, fun st => by cases st <;> decide, by decide, by decide, by decide⟩

theorem test_hyp_ReleaseAndExpiry :
    let f := pouring .pouring (ctx none)
    let g := pouring .pouring { ctx none with mode := .presetA }
    let w := { tower.setLine 0 { idle with state := .waiting } with starts := [⟨0, .handle, none⟩] }
    let k := { tower.setLine 0 { idle with state := .waiting } with starts := [⟨0, .keyA, some 9⟩] }
    f.rstnLow = false ∧ f.configured 0 = true ∧ (f.lineCfg 0).mode = .free ∧
    (f.line 0).state = .pouring ∧ (f.line 0).pour = some (ctx none) ∧ (ctx none).mode = .free ∧
    (g.line 0).pour = some { ctx none with mode := .presetA } ∧ (w.line 0).state = .waiting ∧
    (∃ e ∈ w.starts, e.line = 0 ∧ e.kind = .handle) ∧ f.configured 6 = false ∧
    (k.line 0).state = .waiting ∧ (∀ e ∈ k.starts, e.line = 0 → e.kind ≠ .handle) ∧
    (tower.line 0).state ≠ .pouring ∧ (tower.line 0).state ≠ .waiting ∧
    (f.lineCfg 3).mode = .ordered ∧ (∃ e ∈ k.starts, e.line = 0 ∧ e.expiry.isSome = true) := by
  decide

theorem test_hyp_BlockTimers :
    let s := pouring .pouring (ctx none)
    let l := tower.setLine 0 { idle with flashFrom := some 0, lamp := .fast, valve := .full 0 }
    s.rstnLow = false ∧ (s.line 0).state = .pouring ∧ (s.line 0).pour = some (ctx none) ∧
    (s.line 1).state ≠ .pouring ∧ s.station ≠ .unconfigured ∧ l.rstnLow = false ∧
    (l.line 0).flashFrom.isSome = true ∧ (l.line 0).valve = .full 0 ∧ (l.line 0).lamp = .fast := by
  decide

theorem test_hyp_PourPulse :
    let p := { ctx none with pulseTarget := some 1197 }
    let s := pouring .pouring p
    let a := pouring .afterRun (ctx (some .release))
    let q := { ctx none with total := 65534 }
    (s.rstnLow = false ∧ s.configured 0 = true ∧ (s.line 0).pour = some p ∧
      (s.line 0).state = .pouring ∧ 1197 ≤ p.total + 1 - p.foam) ∧
    (a.line 0).pour = some (ctx (some .release)) ∧ (a.line 0).state = .afterRun ∧
    ((pouring .pouring q).line 0).pour = some q ∧ 65535 ≤ q.total + 1 ∧
    ((pouring .pouring (ctx none)).line 0).pour = some (ctx none) ∧
    (ctx none).pulseTarget = none := by decide

theorem test_hyp_PourPulse_foam :
    let l := { idle with state := .pouring, pour := some (ctx none), consecFoam := 3,
                         intervalFrom := some 0 }
    let s := { tower.setLine 0 l with
      pours := 1, journal := { tower.journal with reserved := 1 } }
    let waiting := { idle with state := .waiting }
    let w := { (s.setLine 1 waiting).setLine 5 waiting with
      starts := [⟨5, .handle, none⟩, ⟨1, .handle, none⟩] }
    (StartsOk w ∧ (w.line 0).pour = some (ctx none) ∧ (w.source 4).empty = false ∧
      (w.lineCfg 1).source = 4 ∧ (w.lineCfg 5).source ≠ 4) ∧
    (s.line 0).pour = some (ctx none) ∧ (s.line 0).intervalFrom = some 0 ∧
    min ((s.now - 0) / 25) 65535 < (s.lineCfg 0).fint ∧ (s.lineCfg 0).foamRun ≤ 3 + 1 ∧
    StartsOk s ∧ (s.source 4).empty = false ∧ s.station ≠ .unconfigured ∧
    ((s.setSource 4 { s.source 4 with empty := true }).source 4).empty = true := by decide

theorem test_hyp_CreepPulse :
    let w := { tower.setLine 0 { idle with state := .waiting, creep := 1 } with
      starts := [⟨0, .handle, none⟩] }
    tower.rstnLow = false ∧ tower.configured 6 = false ∧ tower.configured 0 = true ∧
    (tower.line 0).state = .ready ∧ (tower.line 0).creep + 1 < (tower.lineCfg 0).leakLimit ∧
    (w.line 0).state = .waiting ∧ (w.lineCfg 0).leakLimit ≤ (w.line 0).creep + 1 ∧
    (w.lineCfg 0).leakLimit ≠ 0 ∧ (shut.line 0).state = .off ∧ shut.configured 0 = true := by decide

/-- Two steps that test FLOW and VOLUME, the first with a next, the second with END. -/
def cfgFlow : Cfg :=
  let mask := { CondFlags.none with flow := true, volume := true }
  { cfg with steps :=
    [{ stepOf (.step 1) .leave 120 with mask }, { stepOf .leave .leave 120 with mask }] }

theorem test_hyp_CleaningPulse :
    let s := cleaning 0 .dwell false
    let t := { cleaning 0 .testing false with config := some cfgFlow }
    let e := { cleaning 1 .testing false with config := some cfgFlow }
    (s.rstnLow = false ∧ s.configured 5 = true ∧ (s.line 5).state = .cleaning ∧
      s.clean.runState = .running ∧ s.clean.progress = some ⟨0, .dwell, 0, 0⟩) ∧
    t.clean.progress = some ⟨0, .testing, 0, 0⟩ ∧ (t.stepAt 0).next = .step 1 ∧
    advanceTest (t.stepAt 0) { t.clean.flags with flow := true, volume := true } = true ∧
    (∀ j ∈ t.selected, (t.stepAt 0).pulses ≤ (t.clean.stepCounts.set 5 1)[j]) ∧
    { t.clean.flags with flow := true, volume := true } ≠ t.clean.flags ∧
    e.clean.progress = some ⟨1, .testing, 0, 0⟩ ∧ (e.stepAt 1).next = .leave ∧
    advanceTest (e.stepAt 1) { e.clean.flags with flow := true, volume := true } = true := by decide

theorem test_hyp_CleaningPulse_station :
    StationOk { cleaning 0 .testing false with config := some cfgFlow } ∧
    StationOk { cleaning 1 .testing false with config := some cfgFlow } := by
  constructor <;> refine ⟨?_, ?_, ?_, ?_, ?_, ?_, ?_⟩ <;> decide

theorem test_hyp_Completion :
    let p := ctx (some .foamOut)
    let s := pouring .afterRun p
    let m := { s with lines := s.lines.set 0 { s.line 0 with remembered := some .a } }
    s.rstnLow = false ∧ (s.line 0).state = .afterRun ∧ (s.line 0).pour = some p ∧
    p.endReason = some .foamOut ∧ p.foamWithdrawn = false ∧ (s.line 0).cleanMark = false ∧
    (s.line 0).remembered = none ∧ (m.line 0).remembered = some .a ∧
    (m.line 0).state = .afterRun ∧ (m.line 0).pour = some p := by decide

/-- A marked line, the last one that a preparing run waits for. -/
theorem test_hyp_Completion_prepared :
    let p := ctx (some .release)
    let s := preparing.setLine 5 { idle with state := .afterRun, pour := some p, cleanMark := true }
    s.rstnLow = false ∧ (s.line 5).state = .afterRun ∧ (s.line 5).pour = some p ∧
    s.station = .running ∧ (s.line 5).cleanMark = true ∧ s.clean.runState = .preparing ∧
    (∀ j ∈ s.selected, j ≠ 5 → (s.line j).state ≠ .pouring ∧ (s.line j).state ≠ .afterRun) := by
  decide

/-- Step 8 of R22: the remembered key is presented; it is admitted, or refused on an EMPTY source. -/
theorem test_remembered_key :
    let s := pouring .afterRun (ctx (some .release))
    let m := s.setLine 0 { s.line 0 with remembered := some .a }
    let e := m.setSource 4 { SourceRec.reset with empty := true }
    ((after (.pourCompletion 0) m).line 0).state = .pouring ∧
    ((after (.pourCompletion 0) e).line 0).flashFrom = some 0 := by decide

theorem test_hyp_ReceiveAssembly :
    let at_ := fun cs : List Byte => { tower with link := { tower.link with rx := .assembly cs } }
    let d := { tower with link := { tower.link with rx := .discard } }
    let f : TxFrame := { chars := [0xA5], sent := 0, began := 0 }
    let r := { tower with link := { tower.link with rx := .readback, tx := some f } }
    let head : List Byte := [0x43, 3, 6]
    let payload : List Byte := [4, 1, 0, 7, 0xA1, 0x20]
    tower.rstnLow = false ∧ tower.link.rx ≠ .off ∧ tower.link.rx = .hunt ∧ (1 : Byte) ≠ 0xA5 ∧
    (at_ []).link.rx = .assembly [] ∧ (at_ [0x53]).link.rx = .assembly [0x53] ∧
    (at_ [0x53, 3]).link.rx = .assembly [0x53, 3] ∧ blank.link.rx = .off ∧
    (at_ head).link.rx = .assembly (0x43 :: 3 :: 6 :: []) ∧
    ([] : List Byte).length < (6 : Byte).toNat + 1 ∧
    (at_ (head ++ payload ++ [0])).link.rx = .assembly (0x43 :: 3 :: 6 :: (payload ++ [0])) ∧
    payload.length = (6 : Byte).toNat ∧ d.link.rx = .discard ∧ r.link.rx = .readback ∧
    r.link.tx = some f := by decide

/-- The last character of a frame: the CRC wrong; the content wrong, a STATUS of two entries with the
payload of none; and a frame that passes. -/
theorem test_hyp_ReceiveAssembly_crc :
    let ok := crc16 ([0x43, 3, 6] ++ [4, 1, 0, 7, 0xA1, 0x20])
    let bad := crc16 ([0x53, 3, 5] ++ [1, 0, 0, 0, 2])
    be16 (ok.extractLsb' 8 8) (ok.extractLsb' 0 8) = ok ∧
    be16 (bad.extractLsb' 8 8) (bad.extractLsb' 0 8) = bad ∧
    be16 (ok.extractLsb' 8 8) (ok.extractLsb' 0 8 + 1) ≠ ok := by decide +kernel

theorem test_hyp_OwnNumberMutes :
    let f : LinkFrame := ⟨7, .change ⟨4, 1, 0⟩⟩
    let m := { tower with link := { tower.link with mute := true } }
    tower.rstnLow = false ∧ f.wf = true ∧ f.station.toNat = tower.cfg.station ∧
    tower.link.rx.listening = true ∧ tower.link.mute = false ∧ m.link.mute = true ∧
    f.station.toNat = m.cfg.station ∧ m.link.rx.listening = true := by decide

theorem test_hyp_PeerStatusStored : tower.rstnLow = false ∧ (status []).entries.length ≤ 8 ∧
    (3 : Byte).toNat = (2 : Fin 32).val + 1 ∧ (3 : Byte).toNat ≠ tower.cfg.station ∧
    tower.link.rx.listening = true ∧ (status []).entries = [] ∧ tower.peer 2 = none ∧
    tower.clean.runState ≠ .claiming ∧ StationOk claiming ∧ claiming.clean.runState = .claiming ∧
    claiming.link.rx.listening = true ∧ claiming.rstnLow = false ∧
    (3 : Byte).toNat ≠ claiming.cfg.station :=
  ⟨by decide, by decide, by decide, by decide, by decide, by decide, by decide, by decide,
    test_claiming_station, by decide, by decide, by decide, by decide⟩

theorem test_hyp_EntriesApplied :
    let old : LinkEntry := ⟨4, 0, false, 500000, 900⟩
    let s := withPeer [old]
    s.rstnLow = false ∧ (status [old]).entries.length ≤ 8 ∧ s.station ≠ .unconfigured ∧
    (3 : Byte).toNat = (2 : Fin 32).val + 1 ∧ (3 : Byte).toNat ≠ s.cfg.station ∧
    s.link.rx.listening = true ∧ s.clean.runState ≠ .claiming ∧
    ((1 : Byte).toNat + 256 - (s.source 4).gen.toNat) % 256 = 1 ∧
    ((127 : Byte).toNat + 256 - (s.source 4).gen.toNat) % 256 = 127 ∧
    ((128 : Byte).toNat + 256 - (s.source 4).gen.toNat) % 256 = 128 ∧
    (old.gen.toNat + 256 - (s.source 4).gen.toNat) % 256 = 0 ∧
    empties s [{ old with empty := true }] 4 = true ∧ adopts s [{ old with gen := 1 }] 4 = true := by
  decide

/-- A peer STATUS that sets EMPTY takes the parked line off the list; one that adopts a generation lifts the
foam lock (R25, R86). -/
theorem test_status_empties_and_adopts :
    let old : LinkEntry := ⟨4, 0, true, 500000, 900⟩
    let w := { tower.setLine 0 { idle with state := .waiting } with starts := [⟨0, .handle, none⟩] }
    let l := tower.setLine 0 { idle with state := .locked, lock := .foamOut }
    (after (.validFrameArrival ⟨3, .status (status [old])⟩) w).starts = [] ∧
    ((after (.validFrameArrival ⟨3, .status (status [{ old with gen := 1 }])⟩) l).line 0).state =
      .ready := by decide

theorem test_hyp_ChangeFrame : tower.rstnLow = false ∧ stationInRange 3 = true ∧
    (3 : Byte).toNat ≠ tower.cfg.station ∧ tower.link.rx.listening = true ∧
    16 ≤ (16 : Byte).toNat ∧ (15 : Byte).toNat = (15 : SourceNo).val ∧
    ((0 : Byte).toNat + 256 - (tower.source 4).gen.toNat) % 256 = 0 ∧
    ((127 : Byte).toNat + 256 - (tower.source 4).gen.toNat) % 256 ≤ 127 ∧
    128 ≤ ((128 : Byte).toNat + 256 - (tower.source 4).gen.toNat) % 256 := by decide

/-- Two characters of a frame being sent from moment 0, none of them read back. -/
def sending (now : Nat) : State :=
  { tower with now := now, link := { tower.link with
      rx := .readback, tx := some ⟨[0xA5, 0x53], 0, 0⟩, current := some ⟨.status, 0⟩,
      idleFrom := some 44, drive := some ⟨[0xA5, 0x53], 0, 88⟩ } }

theorem test_hyp_AnnounceAndAttempt :
    let s := after .announcementTimerExpiry tower
    let c := { tower with link := { tower.link with
      changes := [⟨4, 1, 0⟩], current := some ⟨.change, 7⟩ } }
    let m := { tower with link := { tower.link with mute := true } }
    let d : Drive := { chars := [0xA5], began := 0, ends := 44 }
    let at_ := fun now => { tower with now := now, link := { tower.link with drive := some d } }
    s.rstnLow = false ∧ s.station ≠ .unconfigured ∧ s.link.mute = false ∧ s.link.tx = none ∧
    s.link.current = some ⟨.status, 0⟩ ∧ c.link.current = some ⟨.change, 7⟩ ∧
    c.link.changes = ⟨4, 1, 0⟩ :: [] ∧ c.link.tx = none ∧ m.link.mute = true ∧
    (at_ 0).link.drive = some d ∧ d.chars[0]? = some 0xA5 ∧ (at_ 0).now < d.ends ∧
    d.began + 44 * 0 + 4 * 0 ≤ (at_ 0).now ∧ (at_ 0).now < d.began + 44 * 0 + 4 * (0 + 1) ∧
    d.began + 44 * 0 + 4 * 10 ≤ (at_ 43).now ∧ (at_ 43).now < d.began + 44 * 0 + 4 * (10 + 1) ∧
    (at_ 43).now < d.ends ∧ d.ends ≤ (at_ 44).now ∧ tower.link.drive = none ∧
    (∃ f ∈ (sending 44).link.tx, f.began + 44 * (f.sent + 1) ≤ (sending 44).now) := by decide

/-- A character taken late, at 43 units, leaves the receiver ready for the start bit that follows (R101). -/
theorem test_next_start_after_good_stop_bit :
    let s := sending 43
    let r := { s with link := { s.link with recv := .busy 1 (charBits 0xA5) } }
    let t := after (.characterTaken 0xA5 false) (takeDue (.characterTaken 0xA5 false) r)
    due r = some (.characterTaken 0xA5 false) ∧ t.link.recv = .mark ∧
    pairPin { t with now := 44 } = some false := by decide

/-- A character not read back at 44 units: no start bit follows, and the collision comes first (R114). -/
theorem test_missing_character :
    let s := sending 44
    let r := { s with link := { s.link with recv := .mark } }
    driverOn (sending 43) = true ∧ driverOn s = false ∧ due r = some .collision ∧
    (after .collision r).link.idleFrom = some 44 := by decide

/-- A character that starts 20 µs into an own character and outlasts it: the collision at the own
character's end leaves the idle time counting from the later end (R101). -/
theorem test_idle_after_later_start :
    let f : TxFrame := { chars := [0xA5], sent := 0, began := 0 }
    let s := { tower with link := { tower.link with
      rx := .readback, tx := some f, current := some ⟨.status, 0⟩, idleFrom := some 44 } }
    let t := after .collision (after .characterStart { s with now := 10 })
    t.link.idleFrom = some 54 := by decide

theorem test_hyp_AttemptEnds :
    let f : TxFrame := { chars := [0xA5], sent := 0, began := 0 }
    let s := { tower with link := { tower.link with tx := some f, current := some ⟨.status, 6⟩ } }
    let e := { tower with link := { tower.link with tx := some f, current := some ⟨.change, 7⟩ } }
    s.rstnLow = false ∧ s.link.tx = some f ∧ s.link.current = some ⟨.status, 6⟩ ∧ 6 + 1 ≠ 8 ∧
    e.link.current = some ⟨.change, 7⟩ ∧ 7 + 1 = 8 ∧ s.clean.runState ≠ .claiming := by decide

/-- The claim runs at age 1, which the success raises to 2; at age 0 it goes on. -/
theorem test_hyp_AttemptEnds_claim :
    let f : TxFrame := { chars := [0xA5], sent := 0, began := 0 }
    let c := { claiming with link := { tower.link with tx := some f, current := some ⟨.status, 0⟩ } }
    let young := { c with clean := { c.clean with age := 0 } }
    c.rstnLow = false ∧ c.link.tx = some f ∧ c.link.current = some ⟨.status, 0⟩ ∧
    c.clean.runState = .claiming ∧ c.clean.job = some ⟨1, 0x20, 0⟩ ∧ c.clean.age + 1 = 2 ∧
    rankedAhead c 2 < c.cfg.cleanSlots ∧ c.link.mute = false ∧
    young.clean.runState = .claiming ∧ young.clean.age + 1 < 2 := by decide

theorem test_hyp_AttemptEnds_station :
    let c := { claiming with
      link := { tower.link with tx := some ⟨[0xA5], 0, 0⟩, current := some ⟨.status, 0⟩ } }
    StationOk c ∧ StationOk { c with clean := { c.clean with age := 0 } } := by
  constructor <;> refine ⟨?_, ?_, ?_, ?_, ?_, ?_, ?_⟩ <;> decide

theorem test_hyp_PeerExpires :
    let early := { withPeer [] with now := 1499999 }
    let s := { withPeer [] with now := 1500000 }
    let p : PeerRec := { fresh := true, lastAt := 0, body := status [] }
    s.rstnLow = false ∧ (3 : Byte).toNat = (2 : Fin 32).val + 1 ∧ s.peer 2 = some p ∧
    p.fresh = true ∧ p.lastAt + 1500000 ≤ s.now ∧ s.clean.runState ≠ .claiming ∧
    early.now < p.lastAt + 1500000 ∧ early.peer 2 = some p ∧
    (s.setPeer 2 (some { p with fresh := false })).peer 2 = some { p with fresh := false } := by
  decide

theorem test_hyp_PeerExpires_station :
    let s := { withPeer [] with now := 1500000 }
    let c := { claiming with peers := s.peers, now := 1500000 }
    StationOk s ∧ StationOk c ∧ c.clean.runState = .claiming ∧ (c.peer 2).isSome = true := by
  refine ⟨?_, ?_, by decide, by decide⟩ <;> refine ⟨?_, ?_, ?_, ?_, ?_, ?_, ?_⟩ <;> decide

theorem test_hyp_SensorSample : tower.rstnLow = false ∧ tower.station ≠ .unconfigured ∧
    tower.starts = [] ∧
    16 ≤ (16 : BitVec 12).toNat ∧ (4079 : BitVec 12).toNat ≤ 4079 ∧
    ¬ (16 ≤ (15 : BitVec 12).toNat) ∧ ¬ ((4080 : BitVec 12).toNat ≤ 4079) := by decide

/-- A step whose test is that FLOW is clear, with END. -/
def cfgStill : Cfg :=
  { cfg with steps := [{ stepOf .leave .leave 120 with
      kind := .allClear, mask := { CondFlags.none with flow := true } }] }

theorem test_hyp_FlagChanges :
    let d := cleaning 0 .dwell false
    let u := cleaning 0 .testing false
    let v := cleaning 1 .testing false
    let flowing := fun s : State =>
      { s with clean := { s.clean with flags := { s.clean.flags with flow := true } } }
    let w := { flowing u with config := some cfgStill }
    tower.rstnLow = false ∧ tower.clean.runState ≠ .running ∧ d.clean.runState = .running ∧
    d.clean.progress = some ⟨0, .dwell, 0, 0⟩ ∧ u.clean.progress = some ⟨0, .testing, 0, 0⟩ ∧
    u.clean.flags ≠ u.clean.flags.setPin .clear true ∧
    advanceTest (u.stepAt 0) (u.clean.flags.setPin .clear true) = true ∧
    (u.stepAt 0).next = .step 1 ∧ (v.stepAt 1).next = .leave ∧
    advanceTest (v.stepAt 1) (v.clean.flags.setPin .clear true) = true ∧
    d.clean.flags.flow = false ∧ (flowing d).clean.flags.flow = true ∧
    w.clean.flags.flow = true ∧ w.clean.progress = some ⟨0, .testing, 0, 0⟩ ∧
    advanceTest (w.stepAt 0) { w.clean.flags with flow := false } = true ∧
    (w.stepAt 0).next = .leave := by decide

theorem test_hyp_FlagChanges_station : StationOk (cleaning 0 .testing false) ∧
    StationOk (cleaning 1 .testing false) ∧
    StationOk { cleaning 0 .testing false with config := some cfgStill } := by
  refine ⟨?_, ?_, ?_⟩ <;> refine ⟨?_, ?_, ?_, ?_, ?_, ?_, ?_⟩ <;> decide

theorem test_hyp_StepExpiries :
    let d := cleaning 0 .dwell false
    let e := cleaning 0 .dwell true
    let u := cleaning 0 .testing false
    let v := cleaning 2 .dwell false
    d.rstnLow = false ∧ d.clean.runState = .running ∧
    d.clean.progress = some ⟨0, .dwell, 0, 0⟩ ∧ (d.stepAt 0).limit ≠ (d.stepAt 0).dwell ∧
    advanceTest (d.stepAt 0) d.clean.flags = false ∧
    advanceTest (e.stepAt 0) e.clean.flags = true ∧ (e.stepAt 0).next = .step 1 ∧
    u.clean.progress = some ⟨0, .testing, 0, 0⟩ ∧ (u.stepAt 0).limit ≠ 0 ∧
    (u.stepAt 0).faultNext = .step 1 ∧ (v.stepAt 2).limit = (v.stepAt 2).dwell ∧
    advanceTest (v.stepAt 2) v.clean.flags = false ∧ (v.stepAt 2).faultNext = .step 0 := by decide

theorem test_hyp_StepExpiries_station :
    StationOk (cleaning 0 .dwell true) ∧ StationOk (cleaning 2 .dwell false) := by
  constructor <;> refine ⟨?_, ?_, ?_, ?_, ?_, ?_, ?_⟩ <;> decide

theorem test_hyp_AdvanceTest :
    let st := stepOf .leave .leave 0
    st.kind = .allSet ∧ ({ st with kind := .allClear } : StepRec).kind = .allClear ∧
    ({ st with kind := .pattern } : StepRec).kind = .pattern ∧
    ({ st with mask := .none } : StepRec).mask = .none := by decide

theorem test_hyp_PortionReachesTarget : 50 ≤ 400 ∧ (-32768 : Int) ≤ -1311 ∧ (-512 : Int) ≤ 6 ∧
    pulseTarget 400 (-1311) 6 4730 < 65535 ∧ pulseTarget 400 (-1311) 6 4730 ≤ 1206 := by decide

theorem test_hyp_VolumeBounds : (2000 : Nat) ≤ 2000 ∧ (-32768 : Int) ≤ 32767 ∧
    (511 : Int) ≤ 511 ∧ (65535 : Nat) ≤ 65535 ∧ 4 * ((2 : Nat) : Int) + (-8) ≤ 0 ∧
    0 ≤ 4 * ((2 : Nat) : Int) + (-8) := by decide

theorem test_hyp_RetryWaits : 1 ≤ 1 ∧ 32 ≤ 32 ∧ 1 < 32 ∧ 1 ≤ 7 ∧ 7 ≤ 7 := by decide

theorem test_hyp_kept_orders : OrdersOk (ordered [⟨1, 100⟩, ⟨2, 100⟩]) := by
  have h : ∀ i, inHand (ordered [⟨1, 100⟩, ⟨2, 100⟩]) i = none := by decide
  have len : ∀ i, ((ordered [⟨1, 100⟩, ⟨2, 100⟩]).line i).orders.length ≤ 4 := by decide
  have tags : ∀ i, (((ordered [⟨1, 100⟩, ⟨2, 100⟩]).line i).orders.map Order.tag).Nodup := by decide
  exact fun i => ⟨len i, tags i, fun tag e => by rw [h i] at e; cases e⟩

theorem test_hyp_kept : CoolingOk tower ∧ LinkOk tower ∧ WidthsOk tower ∧ LampsOk tower ∧
    DriverOk tower ∧ StaleOk tower ∧
    ∃ t, step { tower with pending := [.keyPress 0 .a] } = .next t :=
  ⟨by decide, by decide, by decide, by decide, by decide, by decide, _, rfl⟩

/-- A frame being sent, and a record gone STALE. -/
theorem test_hyp_kept_link :
    let s := after .accessWaitExpiry (after .announcementTimerExpiry tower)
    let p := after (.peerExpiry 3) { withPeer [] with now := 1500000 }
    s.link.tx.isSome = true ∧ DriverOk s ∧ LinkOk s ∧ (p.peer 2).map PeerRec.fresh = some false ∧
    StaleOk p := by decide +kernel

theorem test_hyp_DrawnNeverFalls :
    let s := pouring .afterRun (ctx (some .release))
    ∃ t, step { s with pending := [.pourCompletion 0] } = .next t ∧ t.station ≠ .unconfigured ∧
      (t.source 4).gen = (s.source 4).gen := ⟨_, rfl, by decide, by decide⟩

theorem test_hyp_RunningNeedsSlot :
    let s := { claiming with
      link := { tower.link with tx := some ⟨[0xA5], 0, 0⟩, current := some ⟨.status, 0⟩ },
      pending := [.transmitSuccess] }
    ∃ t, step s = .next t ∧ s.clean.runState ≠ .running ∧ t.clean.runState = .running :=
  ⟨_, rfl, by decide, by decide⟩

theorem test_hyp_OnlyTheseChange :
    ∃ t, exec .stationSecondsTick tower = .next t ∧
      t ≠ { afterReset tower with port := t.port, rstnLow := t.rstnLow } ∧
      tower.station = .running ∧ tower.attn.set .mute ≠ tower.attn :=
  ⟨_, rfl, by decide, by decide, by decide⟩

theorem test_hyp_OnlyTheseChange_mute :
    let m := { tower with attn := { Attention.none with mute := true },
                          link := { tower.link with mute := true } }
    ∃ t, exec .stationSecondsTick m = .next t ∧
      t ≠ { afterReset m with port := t.port, rstnLow := t.rstnLow } ∧
      m.link.mute = true ∧ m.attn.set .mute = m.attn :=
  ⟨_, rfl, by decide, by decide, by decide⟩

end Sys2Proof.Tests
end

/-! SUPPORT. A command that the port takes, and the operands of a command. -/

namespace Sys2Proof.Machine

/-! ## A command that the port takes (R188) -/

section command

variable {body : State → State × Answer} {s u : State} {st : Status} {data : List Byte}

/-- A command that leaves the port and the clock alone: its effect, with its answer being prepared. -/
theorem command_of_body (h : s.accepts) (hb : body (beginCommand s) = (u, st, data))
    (hport : u.port = (beginCommand s).port) (hnow : u.now = s.now) :
    command body s = answer st data { u with port := s.port } := by
  obtain ⟨hrstn, hrdy, harm⟩ := h
  have hc : command body s = prepare (body (beginCommand s)).2 (body (beginCommand s)).1 := by
    simp only [command, powered, hrstn, hrdy, harm]; rfl
  rw [hc, hb]
  simp only [prepare, answer, hport, hnow]
  rfl

/-- A command that changes nothing: only the answer is prepared. -/
theorem command_unchanged (h : s.accepts) (hb : body (beginCommand s) = (beginCommand s, st, data)) :
    command body s = answer st data s :=
  command_of_body (u := beginCommand s) h hb rfl rfl

/-- The frame of a command's effect, carried over from the state in which its body runs. -/
theorem Only.of_beginCommand {ps : List Part} (h : Only ps (beginCommand s) u) :
    Only ps s { u with port := s.port } := by
  intro p hp
  have hq := h p hp
  cases p
  case port => rfl
  all_goals exact hq

/-- A command whose effect stays off the port and the clock: what it answers, and its frame. -/
theorem command_of_only {ps : List Part} (h : s.accepts)
    (hb : body (beginCommand s) = (u, st, data)) (hu : Only ps (beginCommand s) u)
    (hps : Part.port ∉ ps ∧ Part.now ∉ ps) :
    command body s = answer st data { u with port := s.port } ∧ Only ps s { u with port := s.port } :=
  ⟨command_of_body h hb (hu .port hps.1) (hu .now hps.2), hu.of_beginCommand⟩

end command

@[simp] theorem beginCommand_line (s : State) (i : LineNo) : (beginCommand s).line i = s.line i := rfl
@[simp] theorem beginCommand_station (s : State) : (beginCommand s).station = s.station := rfl
@[simp] theorem beginCommand_configured (s : State) (i : LineNo) :
    (beginCommand s).configured i = s.configured i := rfl

/-! ## Operands -/

theorem lineOfByte_eq {b : Byte} {i : LineNo} (h : b.toNat = i.val) : lineOfByte b = some i := by
  have hi : b.toNat < 8 := h ▸ i.isLt
  simp only [lineOfByte, hi, dif_pos, Option.some.injEq]
  exact Fin.ext h

theorem lineOfByte_none {b : Byte} (h : 8 ≤ b.toNat) : lineOfByte b = none := by
  simp [lineOfByte, Nat.not_lt.mpr h]

theorem sourceOfByte_eq {b : Byte} {x : SourceNo} (h : b.toNat = x.val) : sourceOfByte b = some x := by
  have hx : b.toNat < 16 := h ▸ x.isLt
  simp only [sourceOfByte, hx, dif_pos, Option.some.injEq]
  exact Fin.ext h

theorem sourceOfByte_none {b : Byte} (h : 16 ≤ b.toNat) : sourceOfByte b = none := by
  simp [sourceOfByte, Nat.not_lt.mpr h]

theorem peerIndex_eq {b : Byte} {n : Fin 32} (h : b.toNat = n.val + 1) : peerIndex b = some n := by
  have hn : 1 ≤ b.toNat ∧ b.toNat ≤ 32 := by omega
  simp only [peerIndex, hn, and_self, dif_pos, Option.some.injEq]
  exact Fin.ext (by simp [h])

theorem peerIndex_none {b : Byte} (h : b.toNat = 0 ∨ 33 ≤ b.toNat) : peerIndex b = none := by
  have hn : ¬ (1 ≤ b.toNat ∧ b.toNat ≤ 32) := by omega
  simp [peerIndex, hn]

theorem configuredLine_none {b : Byte} {s : State} (h : 8 ≤ b.toNat) : configuredLine b s = none := by
  simp [configuredLine, lineOfByte_none h]

theorem configuredLine_eq {b : Byte} {s : State} {i : LineNo} (h : b.toNat = i.val) :
    configuredLine b s = if s.configured i then some i else none := by
  simp [configuredLine, lineOfByte_eq h]

end Sys2Proof.Machine

/-! SUPPORT. What a state reads like where two states agree, and one operation taken on several lines. -/

namespace Sys2Proof.Machine

/-! ## States that agree -/

theorem line_congr {s t : State} (h : t.lines = s.lines) (i : LineNo) : t.line i = s.line i := by
  simp only [State.line, h]

theorem configured_congr {s t : State} (h : t.config = s.config) (i : LineNo) :
    t.configured i = s.configured i := by
  unfold State.configured State.cfg; rw [h]

theorem lineCfg_congr {s t : State} (h : t.config = s.config) (i : LineNo) :
    t.lineCfg i = s.lineCfg i := by
  unfold State.lineCfg State.cfg; rw [h]

theorem source_congr {s t : State} (h : t.sources = s.sources) (x : SourceNo) :
    t.source x = s.source x := by
  simp only [State.source, h]

/-- A request for a STATUS reads and changes the link alone. -/
theorem StatusRequested.of_link {s u t : State} (h : StatusRequested u t) (hs : u.link = s.link) :
    StatusRequested s t := by
  unfold StatusRequested at h ⊢
  rw [← hs, h]

/-! ## One operation on several lines -/

@[simp] theorem overLines_nil (f : LineNo → State → State) (s : State) : overLines f [] s = s := rfl

@[simp] theorem overLines_cons (f : LineNo → State → State) (i : LineNo) (is : List LineNo)
    (s : State) : overLines f (i :: is) s = overLines f is (f i s) := rfl

theorem mem_allLines (i : LineNo) : i ∈ allLines := by
  revert i; decide

theorem allLines_nodup : allLines.Nodup := by decide

theorem linesOf_nodup (set : Byte) : (linesOf set).Nodup := allLines_nodup.filter _

/-- Where each line's operation touches its own line alone, the operation on one of them acts on the line as
it was, and the line then stands to the end. -/
theorem overLines_at {ps : List Part} {f : LineNo → State → State}
    (hf : ∀ i s, OtherLines i s (f i s)) (hps : ∀ i s, Only ps s (f i s)) {is : List LineNo}
    (hn : is.Nodup) {i : LineNo} (hi : i ∈ is) (s : State) :
    ∃ u, Only ps s u ∧ u.line i = s.line i ∧ (overLines f is s).line i = (f i u).line i ∧
      Only ps (f i u) (overLines f is s) := by
  induction is generalizing s with
  | nil => simp at hi
  | cons k rest ih =>
    obtain ⟨hk, hrest⟩ := List.nodup_cons.mp hn
    rw [overLines_cons]
    rcases List.mem_cons.mp hi with rfl | hi
    · exact ⟨s, Only.refl _ s, rfl, overLines_others hf rest _ i hk, overLines_only hps rest _⟩
    · obtain ⟨u, hu, hline, hend, hrest⟩ := ih hrest hi (f k s)
      have hik : i ≠ k := fun e => hk (e ▸ hi)
      exact ⟨u, (hps k s).trans hu, hline.trans (hf k s i hik), hend, hrest⟩

end Sys2Proof.Machine

/-! SUPPORT. The commands on a line, START and their statements. -/

namespace Sys2Proof.Machine

theorem startLine_spec (i : LineNo) (s : State) :
    ((startLine i s).line i).sansLamp = ({ s.line i with
        lastPour := none,
        state := if s.configured i ∧ (s.line i).state = .off then
            (if (s.line i).lock = .clear then .ready else .locked)
          else (s.line i).state } : Line).sansLamp ∧
      OtherLines i s (startLine i s) ∧ Only [.lines] s (startLine i s) := by
  have hl := setLine_others s i { s.line i with lastPour := none }
  have ho := setLine_only s i { s.line i with lastPour := none }
  by_cases h : s.configured i ∧ (s.line i).state = .off
  · obtain ⟨hset, hl', ho'⟩ := setState_spec i (if (s.line i).lock = .clear then .ready else .locked)
      (s.setLine i { s.line i with lastPour := none })
    have e : startLine i s = setState i (if (s.line i).lock = .clear then .ready else .locked)
        (s.setLine i { s.line i with lastPour := none }) := by simp [startLine, h]
    rw [e]
    exact ⟨by simpa [h] using hset.1, hl.trans hl', ho.trans ho'⟩
  · have e : startLine i s = s.setLine i { s.line i with lastPour := none } := by
      simp only [startLine, beq_iff_eq, Bool.and_eq_true, h, if_false]
    rw [e]
    exact ⟨by simp [h], hl, ho⟩

/-- The station enters RUNNING (R3, R191): each line is started as it stood, and a STATUS is requested
last. -/
theorem startStation_spec (s : State) :
    let t := requestStatus (overLines startLine allLines { s with station := .running })
    t.station = .running ∧ StatusRequested s t ∧ Only [.station, .lines, .link] s t ∧
      ∀ i : LineNo, (t.line i).sansLamp = ({ s.line i with
        lastPour := none,
        state := if s.configured i ∧ (s.line i).state = .off then
            (if (s.line i).lock = .clear then .ready else .locked)
          else (s.line i).state } : Line).sansLamp := by
  obtain ⟨s1, hs1⟩ : ∃ s1 : State, s1 = { s with station := .running } := ⟨_, rfl⟩
  obtain ⟨u, hu⟩ : ∃ u, u = overLines startLine allLines s1 := ⟨_, rfl⟩
  have h1 : Only [.station, .lines, .link] s s1 := by
    intro p hp; subst hs1; cases p <;> simp_all [Part.same]
  have h2 : Only [.lines] s1 u := hu ▸ overLines_only (fun i s => (startLine_spec i s).2.2) _ _
  have hstation : u.station = .running := (h2 .station (by simp)).trans (by rw [hs1])
  obtain ⟨hreq, h3⟩ := requestStatus_spec u (by simp [hstation])
  rw [← hs1, ← hu]
  refine ⟨(h3 .station (by simp)).trans hstation, StatusRequested.of_link hreq ?_,
    (h1.trans (h2.mono (by simp))).trans (h3.mono (by simp)), fun i => ?_⟩
  · exact (h2 .link (by simp)).trans (by rw [hs1])
  · obtain ⟨v, hv, hline, hend, -⟩ := overLines_at (fun i s => (startLine_spec i s).2.1)
      (fun i s => (startLine_spec i s).2.2) allLines_nodup (mem_allLines i) s1
    have hcfg : v.configured i = s.configured i :=
      (configured_congr (hv .config (by simp)) i).trans (by rw [hs1]; rfl)
    have hline1 : s1.line i = s.line i := by rw [hs1]; rfl
    rw [line_congr (h3 .lines (by simp)), hu, hend, (startLine_spec i v).1, hcfg, hline, hline1]

/-- Settles O14: the answer to START, with what the station becomes when it enters RUNNING. -/
theorem startCommand : Obligations.StartCommand := by
  intro s h
  refine ⟨fun hs => congrArg _ (command_unchanged h ?_), fun hs => ?_⟩
  · simp [startBody, hs, refuse]
  · have hb : startBody (beginCommand s) = (requestStatus (overLines startLine allLines
        { beginCommand s with station := .running }), .ok, []) := by
      simp [startBody, hs, accept]
    obtain ⟨hrun, hreq, honly, hlines⟩ := startStation_spec (beginCommand s)
    generalize requestStatus (overLines startLine allLines
      { beginCommand s with station := .running }) = u at hb hrun hreq honly hlines
    obtain ⟨hex, hfr⟩ := command_of_only h hb honly (by simp)
    exact ⟨_, congrArg _ hex, hrun, hreq, hfr, hlines⟩

/-- Settles O18: each line state of R28's table is one operation of the block. -/
theorem pourStopCommand : Obligations.PourStopCommand := by
  intro line s h
  refine ⟨fun hs => ?_, fun hs hl => ?_, fun i hs hl => ⟨fun hc => ?_, fun hc => ⟨?_, ?_, ?_, ?_⟩⟩⟩
  · exact congrArg _ (command_unchanged h (by simp [pourStopBody, hs, refuse]))
  · exact congrArg _ (command_unchanged h (by simp [pourStopBody, hs, configuredLine_none hl, refuse]))
  · exact congrArg _ (command_unchanged h (by simp [pourStopBody, hs, configuredLine_eq hl, hc, refuse]))
  · intro p hst hp
    obtain ⟨hline, hother, honly⟩ := endPour_spec i .stopped (beginCommand s) p hp
    obtain ⟨hex, hfr⟩ := command_of_only (body := pourStopBody line) h
      (u := endPour i .stopped (beginCommand s)) (st := .ok) (data := [])
      (by simp [pourStopBody, hs, configuredLine_eq hl, hc, hst, accept]) honly (by simp)
    exact ⟨_, congrArg _ hex, hline, hother, hfr⟩
  · intro hst
    obtain ⟨hline, hother, hstarts, honly⟩ := refuseEntry_spec i .ready (beginCommand s)
    obtain ⟨hex, hfr⟩ := command_of_only (body := pourStopBody line) h
      (u := refuseEntry i .ready (beginCommand s)) (st := .ok) (data := [])
      (by simp [pourStopBody, hs, configuredLine_eq hl, hc, hst, accept]) honly (by simp)
    exact ⟨_, congrArg _ hex, hline, hother, hstarts, hfr⟩
  · intro hst
    exact congrArg _ (command_of_body (body := pourStopBody line) h
      (u := (beginCommand s).setLine i { s.line i with remembered := none })
      (by simp [pourStopBody, hs, configuredLine_eq hl, hc, hst, accept]) rfl rfl)
  · intro hst
    refine congrArg _ (command_unchanged h ?_)
    rcases hst with hst | hst | hst | hst <;>
      simp [pourStopBody, hs, configuredLine_eq hl, hc, hst, refuse]

/-- Settles O19: UNLOCK is the clearing of the line's lock, and no service walk follows. -/
theorem unlockCommand : Obligations.UnlockCommand := by
  intro line s h
  refine ⟨fun hs => ?_, fun hs hl => ?_, fun i hs hl => ⟨fun hc => ?_, fun hc hk => ?_, fun hc hk => ?_⟩⟩
  · exact congrArg _ (command_unchanged h (by simp [unlockBody, hs, refuse]))
  · exact congrArg _ (command_unchanged h (by simp [unlockBody, hs, configuredLine_none hl, refuse]))
  · exact congrArg _ (command_unchanged h (by simp [unlockBody, hs, configuredLine_eq hl, hc, refuse]))
  · exact congrArg _ (command_unchanged h
      (by simp [unlockBody, hs, configuredLine_eq hl, hc, hk, refuse]))
  · obtain ⟨hline, hother, honly⟩ := clearLock_spec i (beginCommand s)
    obtain ⟨hex, hfr⟩ := command_of_only (body := unlockBody line) h
      (u := clearLock i (beginCommand s)) (st := .ok) (data := [])
      (by simp [unlockBody, hs, configuredLine_eq hl, hc, hk, accept]) honly (by simp)
    exact ⟨_, congrArg _ hex, hline, hother, hfr⟩

end Sys2Proof.Machine

/-! SUPPORT. What the Start Arbiter makes of a request and of a list entry (chapter 1.3). -/

namespace Sys2Proof.Machine

/-! ## The tests of a request -/

theorem unstartable_iff (s : State) (i : LineNo) : unstartable s i = true ↔ Unstartable s i := by
  simp [unstartable, Unstartable, State.sourceEmpty, State.ordered]

theorem stationHold_iff (s : State) : stationHold s = true ↔ Held s := by
  simp [stationHold, Held, State.freeSpace, paceExceeded, Nat.sub_eq_zero_iff_le, or_assoc]

theorem refusedAtOnce_iff (s : State) (i : LineNo) : refusedAtOnce s i = true ↔
    s.station ≠ .running ∨ (s.line i).state ∈ [.locked, .reserved, .cleaning] ∨ Unstartable s i := by
  have hb : (s.line i).state.barred = true ↔ (s.line i).state ∈ [.locked, .reserved, .cleaning] := by
    cases (s.line i).state <;> simp [LineState.barred]
  simp [refusedAtOnce, unstartable_iff, hb, or_assoc]

/-! ## Admission, parking and refusal -/

section admittedBy

variable {s : State} {i : LineNo}

theorem admittedBy_handle (hm : (s.lineCfg i).mode = .free) :
    admittedBy s i .handle = admittedLine s i (s.line i) .free none none (s.line i).orders := by
  simp [admittedBy, hm]

theorem admittedBy_keyA (hm : (s.lineCfg i).mode = .free) : admittedBy s i .keyA =
    admittedLine s i (s.line i) .presetA none (some (s.lineCfg i).presetA) (s.line i).orders := by
  simp [admittedBy, hm]

theorem admittedBy_keyB (hm : (s.lineCfg i).mode = .free) : admittedBy s i .keyB =
    admittedLine s i (s.line i) .presetB none (some (s.lineCfg i).presetB) (s.line i).orders := by
  simp [admittedBy, hm]

theorem admittedBy_ordered (kind : StartKind) {o : Order} {rest : List Order}
    (hm : (s.lineCfg i).mode = .ordered) (ho : (s.line i).orders = o :: rest) : admittedBy s i kind =
      admittedLine s i (s.line i) .order (some o.tag) (some o.volume) rest := by
  simp [admittedBy, hm, ho]

/-- An admission reads the configuration of its line and the clocks, and no other line. -/
theorem admittedLine_setLine (j : LineNo) (l' l : Line) (mode : PourMode) (tag : Option (BitVec 16))
    (target : Option Nat) (orders : List Order) :
    admittedLine (s.setLine j l') i l mode tag target orders =
      admittedLine s i l mode tag target orders := by
  simp only [admittedLine, setLine_lineCfg, setLine_now, setLine_seconds]

end admittedBy

/-- The line that an admission writes is the one of R10's table, whatever its mode and the kind of start. -/
theorem beginPour_line_eq (i : LineNo) (kind : StartKind) (s : State) (h : ¬ Unstartable s i) :
    ({ s.line i with
      state := .pouring, pour := some (newPour s i kind), creep := 0, consecFoam := 0,
      intervalFrom := some s.now, valve := .full s.now,
      orders := if s.ordered i then (s.line i).orders.tail else (s.line i).orders } : Line) =
      admittedBy s i kind := by
  cases hm : (s.lineCfg i).mode with
  | free =>
    cases kind <;>
      simp [admittedBy_handle, admittedBy_keyA, admittedBy_keyB, admittedLine, newPour, pourMode,
        pourTarget, State.ordered, hm]
  | ordered =>
    cases ho : (s.line i).orders with
    | nil => exact absurd (Or.inr ⟨hm, ho⟩) h
    | cons o rest =>
      simp [admittedBy_ordered kind hm ho, admittedLine, newPour, pourMode, pourTarget,
        State.ordered, hm, ho]

theorem beginPour_spec (i : LineNo) (kind : StartKind) (s : State) (h : ¬ Unstartable s i) :
    Admitted i (admittedBy s i kind) s (beginPour i kind s) := by
  obtain ⟨s1, hs1⟩ : ∃ s1 : State, s1 = { s with
    journal := { s.journal with reserved := s.journal.reserved + 1 }, pours := s.pours + 1 } := ⟨_, rfl⟩
  have e : beginPour i kind s = relamp i (s1.setLine i (admittedBy s i kind)) := by
    rw [← beginPour_line_eq i kind s h, hs1]; rfl
  have h1 : Only [.lines, .pours, .journal] s s1 := by
    intro p hp; subst hs1; cases p <;> simp_all [Part.same]
  obtain ⟨hline, hother, honly⟩ := relamp_setLine i s1 (admittedBy s i kind)
  rw [e]
  refine ⟨hline, fun j hj => (hother j hj).trans (by rw [hs1]; rfl),
    (honly .pours (by simp)).trans (by rw [hs1]), (honly .journal (by simp)).trans (by rw [hs1]),
    h1.trans (honly.mono (by simp))⟩

theorem park_spec (i : LineNo) (kind : StartKind) (expiry : Option Nat) (s : State) :
    Parked i (s.line i) ⟨i, kind, expiry⟩ s (park i kind expiry s) := by
  obtain ⟨hline, hother, honly⟩ := setState_spec i .waiting
    { s with starts := s.starts ++ [⟨i, kind, expiry⟩] }
  refine ⟨hline, hother, honly .starts (by simp), Only.trans ?_ (honly.mono (by simp))⟩
  intro p hp; cases p <;> simp_all [Part.same]

/-- A request that R8 refuses. -/
theorem request_refused {i : LineNo} {s : State} (kind : StartKind) (h : refusedAtOnce s i = true) :
    Flashes i (s.line i) s (request i kind s) := by
  simp only [request, h, if_true]
  exact refuseFlash_spec i s

/-- A request that a hold or the list meets is parked or refused (R9). -/
theorem request_parked {i : LineNo} {s : State} (kind : StartKind) (h : refusedAtOnce s i = false)
    (hh : Held s ∨ s.starts ≠ []) : request i kind s = parkOrRefuse i kind s := by
  have hp : (stationHold s || !s.starts.isEmpty) = true := by
    simpa [stationHold_iff] using hh
  simp [request, h, hp]

/-- A request that nothing meets is admitted (R10). -/
theorem request_admitted {i : LineNo} {s : State} (kind : StartKind) (h : refusedAtOnce s i = false)
    (hh : ¬ Held s) (hs : s.starts = []) :
    Admitted i (admittedBy s i kind) s (request i kind s) := by
  have hn : stationHold s = false := by simpa using (stationHold_iff s).not.mpr hh
  have hu : ¬ Unstartable s i := by
    intro hu
    have := (refusedAtOnce_iff s i).mpr (.inr (.inr hu))
    simp [h] at this
  simp only [request, h, hn, hs]
  exact beginPour_spec i kind s hu

theorem parkOrRefuse_handle (i : LineNo) (s : State) :
    Parked i (s.line i) ⟨i, .handle, none⟩ s (parkOrRefuse i .handle s) := park_spec i .handle none s

/-- A key request with HoldWait 0 is refused (R9). -/
theorem parkOrRefuse_key_zero (i : LineNo) (k : Key) (s : State) (h : s.cfg.holdWait = 0) :
    Flashes i (s.line i) s (parkOrRefuse i (Key.kind k) s) := by
  cases k <;> simp only [parkOrRefuse, Key.kind, h, if_true] <;> exact refuseFlash_spec i s

/-- A key request is parked with an expiry after HoldWait (R9, R11). -/
theorem parkOrRefuse_key (i : LineNo) (k : Key) (s : State) (h : s.cfg.holdWait ≠ 0) :
    Parked i (s.line i) ⟨i, (Key.kind k), some (s.now + s.cfg.holdWait * 500000)⟩ s
      (parkOrRefuse i (Key.kind k) s) := by
  cases k <;> simp only [parkOrRefuse, Key.kind, h, if_false] <;> exact park_spec i _ _ s

/-- A key request judged by R8, R9 and R10 in one table (R23). -/
theorem request_key (i : LineNo) (k : Key) (s : State) :
    KeyPresented i k s (request i (Key.kind k) s) := by
  unfold KeyPresented
  dsimp only
  split
  · next h => exact request_refused _ ((refusedAtOnce_iff s i).mpr h)
  · next h =>
    have hr : refusedAtOnce s i = false := by simpa using (refusedAtOnce_iff s i).not.mpr h
    split
    · next hh =>
      rw [request_parked _ hr hh]
      split
      · next h0 => exact parkOrRefuse_key_zero i k s h0
      · next h0 => exact parkOrRefuse_key i k s h0
    · next hh =>
      obtain ⟨hn, hs⟩ := not_or.mp hh
      exact request_admitted _ hr hn (not_not.mp hs)

/-! ## A level taken before the event of its line -/

section taken

variable {i : LineNo} {s t : State} {l l' : Line} {e : StartEntry}

theorem Only.of_setLine {ps : List Part} (h : Only ps (s.setLine i l') t) (hp : Part.lines ∈ ps) :
    Only ps s t :=
  ((setLine_only s i l').mono (by simpa using hp)).trans h

theorem Flashes.of_setLine (h : Flashes i l (s.setLine i l') t) : Flashes i l s t := by
  obtain ⟨hline, hother, honly⟩ := h
  exact ⟨hline, (setLine_others s i l').trans hother, honly.of_setLine (by simp)⟩

theorem Parked.of_setLine (h : Parked i l e (s.setLine i l') t) : Parked i l e s t := by
  obtain ⟨hline, hother, hstarts, honly⟩ := h
  exact ⟨hline, (setLine_others s i l').trans hother, hstarts, honly.of_setLine (by simp)⟩

theorem Admitted.of_setLine (h : Admitted i l (s.setLine i l') t) : Admitted i l s t := by
  obtain ⟨hline, hother, hpours, hjournal, honly⟩ := h
  exact ⟨hline, (setLine_others s i l').trans hother, hpours, hjournal, honly.of_setLine (by simp)⟩

end taken

end Sys2Proof.Machine

/-! SUPPORT. The service walk and its statement (R13, R14). -/

namespace Sys2Proof.Machine

/-- The walk ends at an empty list. -/
theorem serve_nil {s : State} (h : s.starts = []) : serve s = s := by
  simp [serve, h, serveList]

/-- The entry of a list whose lines are distinct leaves it alone. -/
theorem filter_head_line {e : StartEntry} {rest : List StartEntry}
    (h : ((e :: rest).map StartEntry.line).Nodup) :
    (e :: rest).filter (fun x => x.line != e.line) = rest := by
  obtain ⟨hne, -⟩ := List.nodup_cons.mp h
  rw [List.filter_cons_of_neg (by simp), List.filter_eq_self]
  intro x hx
  have : x.line ≠ e.line := fun he => hne (he ▸ List.mem_map_of_mem hx)
  simpa using this

section walk

variable {s : State} {e : StartEntry} {rest : List StartEntry}

theorem removeStart_head (hs : s.starts = e :: rest) (hn : (s.starts.map StartEntry.line).Nodup) :
    removeStart e.line s = { s with starts := rest } := by
  rw [hs] at hn
  simp only [removeStart, hs, filter_head_line hn]

/-- An entry that can't start is refused, and the walk goes on (R14). -/
theorem serve_refused (hs : s.starts = e :: rest) (hn : (s.starts.map StartEntry.line).Nodup)
    (h : Unstartable s e.line) :
    (refuseEntry e.line .ready s).starts = rest ∧ serve s = serve (refuseEntry e.line .ready s) := by
  have hr : (refuseEntry e.line .ready s).starts = rest := by
    rw [(refuseEntry_spec e.line .ready s).2.2.1, hs]
    exact filter_head_line (hs ▸ hn)
  refine ⟨hr, ?_⟩
  simp only [serve, hr, hs, serveList, (unstartable_iff s e.line).mpr h, if_true]

/-- A startable entry is held by a station hold, where the walk ends (R14). -/
theorem serve_held (hs : s.starts = e :: rest) (h : ¬ Unstartable s e.line) (hh : Held s) :
    serve s = s := by
  have h' : unstartable s e.line = false := by simpa using (unstartable_iff s e.line).not.mpr h
  simp [serve, hs, serveList, h', (stationHold_iff s).mpr hh]

/-- A startable entry that no hold meets is admitted, and the walk goes on (R14). -/
theorem serve_admitted (hs : s.starts = e :: rest) (hn : (s.starts.map StartEntry.line).Nodup)
    (h : ¬ Unstartable s e.line) (hh : ¬ Held s) :
    (beginPour e.line e.kind { s with starts := rest }).starts = rest ∧
      serve s = serve (beginPour e.line e.kind { s with starts := rest }) := by
  have h' : unstartable s e.line = false := by simpa using (unstartable_iff s e.line).not.mpr h
  have hh' : stationHold s = false := by simpa using (stationHold_iff s).not.mpr hh
  have hr : (beginPour e.line e.kind { s with starts := rest }).starts = rest :=
    (beginPour_only e.line e.kind _) .starts (by simp)
  refine ⟨hr, ?_⟩
  simp only [serve, hr, hs, serveList, h', hh', removeStart_head hs hn]
  rfl

end walk

/-- Where the walk ends, by the walk of what it leaves after each entry: the list is a tail of the one it
began with, and is empty or has a startable entry, held, at its head. -/
theorem serve_ends (es : List StartEntry) (s : State) (hs : s.starts = es)
    (hn : (s.starts.map StartEntry.line).Nodup) :
    (∃ n, (serve s).starts = es.drop n) ∧
      ((serve s).starts = [] ∨ ∃ e rest, (serve s).starts = e :: rest ∧
        ¬ Unstartable (serve s) e.line ∧ Held (serve s)) := by
  induction es generalizing s with
  | nil =>
    rw [serve_nil hs]
    exact ⟨⟨0, hs⟩, .inl hs⟩
  | cons e rest ih =>
    have hrest : (rest.map StartEntry.line).Nodup := by
      rw [hs] at hn; exact (List.nodup_cons.mp hn).2
    by_cases h : Unstartable s e.line
    · obtain ⟨hr, he⟩ := serve_refused hs hn h
      obtain ⟨⟨n, hd⟩, hend⟩ := ih _ hr (hr ▸ hrest)
      rw [he]
      exact ⟨⟨n + 1, hd⟩, hend⟩
    · by_cases hh : Held s
      · rw [serve_held hs h hh]
        exact ⟨⟨0, hs⟩, .inr ⟨e, rest, hs, h, hh⟩⟩
      · obtain ⟨hr, he⟩ := serve_admitted hs hn h hh
        obtain ⟨⟨n, hd⟩, hend⟩ := ih _ hr (hr ▸ hrest)
        rw [he]
        exact ⟨⟨n + 1, hd⟩, hend⟩

/-- Settles O22: one rule for each fate of the oldest entry, and the end of the walk by induction on the
list. -/
theorem serviceWalk : Obligations.ServiceWalk := by
  intro s hn
  obtain ⟨hdrop, hend⟩ := serve_ends s.starts s rfl hn
  refine ⟨serve_nil, fun e rest hs => ?_, hend, hdrop, (serveList_records _ _).1, serve_only s⟩
  split
  · next h =>
    obtain ⟨hr, he⟩ := serve_refused hs hn h
    exact ⟨_, refuseEntry_spec e.line .ready s, hr, he⟩
  · next h =>
    split
    · next hh => exact serve_held hs h hh
    · next hh =>
      exact ⟨_, beginPour_spec e.line e.kind { s with starts := rest } h, (serve_admitted hs hn h hh).2⟩

end Sys2Proof.Machine

/-! SUPPORT. What the events of the tower inputs do (R4, R5), and their statements. -/

namespace Sys2Proof.Machine

/-! ## The events by the state of their line -/

section events

variable {s : State} {i : LineNo}

theorem exec_handlePress (hp : s.rstnLow = false) (hc : s.configured i = true) :
    exec (.handlePress i) s = .next (pressHandle i (s.setLine i
      { s.line i with handle := .taken true })) := by
  simp [exec, execHandlePress, powered, hp, hc, takeHandle]

theorem exec_handleRelease (hp : s.rstnLow = false) (hc : s.configured i = true) :
    exec (.handleRelease i) s = .next (releaseHandle i (s.setLine i
      { s.line i with handle := .taken false })) := by
  simp [exec, execHandleRelease, powered, hp, hc, takeHandle]

theorem exec_keyPress (k : Key) (hp : s.rstnLow = false) (hc : s.configured i = true) :
    exec (.keyPress i k) s = .next (pressKey i k (s.setLine i ((s.line i).keyClosed k))) := by
  simp [exec, execKeyPress, powered, hp, hc, takeKey]

theorem ordered_free (h : (s.lineCfg i).mode = .free) : s.ordered i = false := by
  simp [State.ordered, h]

theorem ordered_ordered (h : (s.lineCfg i).mode = .ordered) : s.ordered i = true := by
  simp [State.ordered, h]

/-- A press on a READY line is a request (R5). -/
theorem pressHandle_ready (ho : (s.lineCfg i).mode = .free) (hs : (s.line i).state = .ready) :
    pressHandle i s = request i .handle s := by
  simp [pressHandle, ordered_free ho, hs]

theorem pressKey_ready (k : Key) (hs : (s.line i).state = .ready) :
    pressKey i k s = request i (Key.kind k) s := by
  simp [pressKey, hs]

theorem exec_handlePress_ready (hp : s.rstnLow = false) (hc : s.configured i = true)
    (hm : (s.lineCfg i).mode = .free) (hs : (s.line i).state = .ready) : exec (.handlePress i) s =
      .next (request i .handle (s.setLine i { s.line i with handle := .taken true })) := by
  rw [exec_handlePress hp hc]
  exact congrArg _ (pressHandle_ready (s := s.setLine i { s.line i with handle := .taken true }) hm
    (by simpa using hs))

theorem exec_keyPress_ready (k : Key) (hp : s.rstnLow = false) (hc : s.configured i = true)
    (hs : (s.line i).state = .ready) : exec (.keyPress i k) s =
      .next (request i (Key.kind k) (s.setLine i ((s.line i).keyClosed k))) := by
  rw [exec_keyPress k hp hc, pressKey_ready k (by simpa using hs)]

/-- A line that is READY and can start is not refused at once (R8). -/
theorem refusedAtOnce_ready (hr : s.station = .running) (hs : (s.line i).state = .ready)
    (hu : ¬ Unstartable s i) : refusedAtOnce s i = false := by
  have h := (refusedAtOnce_iff s i).not.mpr (by simp [hr, hs, hu])
  simpa using h

end events

/-- Settles O28: a press is a request, which nothing meets. -/
theorem admission : Obligations.Admission := by
  intro s i hp hr hc hs he hh hl l c
  have hadmit : ∀ (kind : StartKind) (l' : Line), l'.state = .ready → l'.orders = l.orders →
      ¬ Unstartable s i →
      Admitted i (admittedBy (s.setLine i l') i kind) s (request i kind (s.setLine i l')) := by
    intro kind l' hs' ho hu
    have hr' : refusedAtOnce (s.setLine i l') i = false :=
      refusedAtOnce_ready hr (by simpa using hs') (by simpa [Unstartable, ho, l] using hu)
    exact (request_admitted (s := s.setLine i l') kind hr' hh hl).of_setLine
  refine ⟨fun hm => ?_, fun hm o rest k ho => ?_⟩
  · have hm' : (s.lineCfg i).mode = .free := hm
    have hu : ¬ Unstartable s i := by simp [Unstartable, he, hm']
    refine ⟨⟨_, exec_handlePress_ready hp hc hm hs, ?_⟩, ⟨_, exec_keyPress_ready .a hp hc hs, ?_⟩,
      ⟨_, exec_keyPress_ready .b hp hc hs, ?_⟩⟩
    · have h := hadmit .handle { l with handle := .taken true } hs rfl hu
      rwa [admittedBy_handle (s := s.setLine i _) hm, line_setLine_same, admittedLine_setLine] at h
    · have h := hadmit .keyA (l.keyClosed .a) hs rfl hu
      rwa [admittedBy_keyA (s := s.setLine i _) hm, line_setLine_same, admittedLine_setLine] at h
    · have h := hadmit .keyB (l.keyClosed .b) hs rfl hu
      rwa [admittedBy_keyB (s := s.setLine i _) hm, line_setLine_same, admittedLine_setLine] at h
  · have hu : ¬ Unstartable s i := by simp [Unstartable, he, show (s.line i).orders = _ from ho]
    have h := hadmit (Key.kind k) (l.keyClosed k) (by simpa using hs) (by simp) hu
    rw [admittedBy_ordered (s := s.setLine i _) _ hm (by simpa using ho), line_setLine_same,
      admittedLine_setLine] at h
    exact ⟨_, exec_keyPress_ready k hp hc hs, h⟩

/-- Settles O29: a press is a request, which a hold or the list meets. -/
theorem parking : Obligations.Parking := by
  intro s i hp hr hc hs he hh
  have hpark : ∀ (kind : StartKind) (l' : Line), l'.state = .ready →
      l'.orders = (s.line i).orders → ¬ Unstartable s i →
      request i kind (s.setLine i l') = parkOrRefuse i kind (s.setLine i l') := by
    intro kind l' hs' ho hu
    have hr' : refusedAtOnce (s.setLine i l') i = false :=
      refusedAtOnce_ready hr (by simpa using hs') (by simpa [Unstartable, ho] using hu)
    exact request_parked (s := s.setLine i l') kind hr' hh
  refine ⟨fun hm => ?_, fun k hk => ?_⟩
  · have hu : ¬ Unstartable s i := by simp [Unstartable, he, hm]
    refine ⟨_, exec_handlePress_ready hp hc hm hs, ?_⟩
    rw [hpark .handle { s.line i with handle := .taken true } hs rfl hu]
    have h := parkOrRefuse_handle i (s.setLine i { s.line i with handle := .taken true })
    rw [line_setLine_same] at h
    exact h.of_setLine
  · have hu : ¬ Unstartable s i := by
      rcases hk with hm | ho
      · simp [Unstartable, he, hm]
      · simp [Unstartable, he, ho]
    refine ⟨_, exec_keyPress_ready k hp hc hs, ?_⟩
    rw [hpark (Key.kind k) ((s.line i).keyClosed k) (by simpa using hs) (by simp) hu]
    split
    · next h0 =>
      have h := parkOrRefuse_key_zero i k (s.setLine i ((s.line i).keyClosed k)) h0
      rw [line_setLine_same] at h
      exact h.of_setLine
    · next h0 =>
      have h := parkOrRefuse_key i k (s.setLine i ((s.line i).keyClosed k)) h0
      rw [line_setLine_same] at h
      exact h.of_setLine

/-! ## Presses that start nothing -/

/-- The states in which a press is refused outright (R5). -/
def LineState.refuses (st : LineState) : Prop :=
  st = .off ∨ st = .reserved ∨ st = .cleaning ∨ st = .locked

section refused

variable {s : State} {i : LineNo}

/-- A press on a line that refuses, or on a READY line that can't start, flashes (R5, R8). -/
theorem pressKey_flashes (k : Key)
    (h : (s.line i).state.refuses ∨ ((s.line i).state = .ready ∧ Unstartable s i)) :
    Flashes i (s.line i) s (pressKey i k s) := by
  rcases h with (h | h | h | h) | ⟨h, hu⟩
  case inr =>
    rw [pressKey_ready k h]
    exact request_refused _ ((refusedAtOnce_iff s i).mpr (.inr (.inr hu)))
  all_goals
    simp only [pressKey, h]
    exact refuseFlash_spec i s

theorem pressHandle_flashes (hm : (s.lineCfg i).mode = .free)
    (h : (s.line i).state.refuses ∨ ((s.line i).state = .ready ∧ Unstartable s i)) :
    Flashes i (s.line i) s (pressHandle i s) := by
  rcases h with (h | h | h | h) | ⟨h, hu⟩
  case inr =>
    rw [pressHandle_ready hm h]
    exact request_refused _ ((refusedAtOnce_iff s i).mpr (.inr (.inr hu)))
  all_goals
    simp only [pressHandle, ordered_free hm, h]
    exact refuseFlash_spec i s

/-- A key pressed in AFTER-RUN is remembered, once (R23). -/
theorem pressKey_afterRun (k : Key) (h : (s.line i).state = .afterRun) :
    pressKey i k s = s.setLine i { s.line i with remembered := match (s.line i).remembered with
      | none => some k
      | some r => some r } := by
  cases hr : (s.line i).remembered with
  | none => simp [pressKey, h, hr]
  | some r =>
    have e : s.line i = { s.line i with remembered := some r } := by rw [← hr]
    have hs : pressKey i k s = s := by simp [pressKey, h, hr]
    exact hs.trans ((setLine_self s i).symm.trans (congrArg (s.setLine i) e))

end refused

/-- Settles O30: by the state of the line on which the press is taken. -/
theorem pressesNotAdmitted : Obligations.PressesNotAdmitted := by
  intro s i k hp l closed held
  have hk : ((s.setLine i closed).line i).state = l.state := by simp [closed, l]
  have hh : ((s.setLine i held).line i).state = l.state := by simp [held]
  refine ⟨by cases k <;> rfl, fun hc => ?_, fun hc => ⟨fun hm => ?_, fun hs => ⟨?_, fun hm => ?_⟩,
    fun hs hm ho => ?_, fun hs => ?_, fun hs => ?_, fun hs => ?_⟩⟩
  · constructor
    · simp [exec, execKeyPress, powered, hp, hc, takeKey, closed, l]
    · simp [exec, execHandlePress, powered, hp, hc, takeHandle, held, l]
  · rw [exec_handlePress hp hc]
    simp [pressHandle, ordered_ordered hm, held, l]
  · refine ⟨_, exec_keyPress k hp hc, Flashes.of_setLine (l' := closed) ?_⟩
    have h := pressKey_flashes (s := s.setLine i closed) (i := i) k (by
      simpa only [hk, LineState.refuses, or_assoc, Unstartable] using
        hs.imp_right (.imp_right (.imp_right (.imp_right (.imp_right .inl)))))
    rwa [line_setLine_same] at h
  · refine ⟨_, exec_handlePress hp hc, Flashes.of_setLine (l' := held) ?_⟩
    have h := pressHandle_flashes (s := s.setLine i held) (i := i) hm (by
      simpa only [hh, LineState.refuses, or_assoc, Unstartable] using
        hs.imp_right (.imp_right (.imp_right (.imp_right (.imp_right .inl)))))
    rwa [line_setLine_same] at h
  · refine ⟨_, exec_keyPress k hp hc, Flashes.of_setLine (l' := closed) ?_⟩
    have hu : Unstartable (s.setLine i closed) i := .inr ⟨hm, by simpa [closed] using ho⟩
    have h := pressKey_flashes (s := s.setLine i closed) k (.inr ⟨hk.trans hs, hu⟩)
    rwa [line_setLine_same] at h
  · rw [exec_keyPress k hp hc]
    rcases hs with hs | hs <;> simp [pressKey, hs, closed, l]
  · rw [exec_handlePress hp hc]
    rcases hs with hs | hs | hs <;> simp [pressHandle, hs, held, l]
  · rw [exec_keyPress k hp hc, pressKey_afterRun k (hk.trans hs)]
    simp only [line_setLine_same, setLine_setLine, closed, keyClosed_remembered] <;> rfl

/-! ## Releases and expiries -/

/-- A start kind that a handle gives stands in the list (R12). -/
theorem hasHandleEntry_iff (s : State) (i : LineNo) :
    hasHandleEntry s i = true ↔ ∃ e ∈ s.starts, e.line = i ∧ e.kind = .handle := by
  simp [hasHandleEntry]

theorem hasKeyEntry_iff (s : State) (i : LineNo) :
    hasKeyEntry s i = true ↔ ∃ e ∈ s.starts, e.line = i ∧ e.expiry.isSome = true := by
  simp [hasKeyEntry]

section release

variable {s : State} {i : LineNo}

/-- On a WAITING line a release takes a HANDLE entry off the list (R12). -/
theorem releaseHandle_waiting (hm : (s.lineCfg i).mode = .free) (hs : (s.line i).state = .waiting) :
    releaseHandle i s = if hasHandleEntry s i then setState i .ready (removeStart i s) else s := by
  simp [releaseHandle, ordered_free hm, hs]

/-- On a POURING line a release ends a FREE pour (R19). -/
theorem releaseHandle_pouring {p : PourCtx} (hm : (s.lineCfg i).mode = .free)
    (hs : (s.line i).state = .pouring) (hp : (s.line i).pour = some p) :
    releaseHandle i s = if p.mode = .free then endPour i .release s else s := by
  simp [releaseHandle, ordered_free hm, hs, hp]

/-- In any other line state, and on an ORDERED line, a release has no effect (R5). -/
theorem releaseHandle_idle (h : (s.lineCfg i).mode = .ordered ∨
    ((s.line i).state ≠ .waiting ∧ (s.line i).state ≠ .pouring)) : releaseHandle i s = s := by
  rcases h with hm | ⟨hw, hp⟩
  · simp [releaseHandle, ordered_ordered hm]
  · unfold releaseHandle
    split
    · rfl
    · split <;> simp_all

end release

/-- Settles O31: by the state of the line on which the release is taken. -/
theorem releaseAndExpiry : Obligations.ReleaseAndExpiry := by
  intro s i hp l open_
  have hline : (s.setLine i open_).line i = open_ := line_setLine_same s i open_
  have hstate : ∀ {st}, l.state = st → ((s.setLine i open_).line i).state = st := by
    intro st h; rw [hline]; exact h
  have hpour : ∀ {p}, l.pour = some p → ((s.setLine i open_).line i).pour = some p := by
    intro p h; rw [hline]; exact h
  refine ⟨fun hc hm => ⟨fun p hs hpr hmode => ?_, fun p hs hpr hmode => ?_, fun hs he => ?_,
    fun hs he => ?_, fun hs hs' => ?_⟩, fun h => ?_, fun h => ?_⟩
  · have e := releaseHandle_pouring (s := s.setLine i open_) hm (hstate hs) (hpour hpr)
    rw [if_pos hmode] at e
    obtain ⟨hend, hother, honly⟩ := endPour_spec i .release (s.setLine i open_) p (hpour hpr)
    rw [hline] at hend
    exact ⟨_, (exec_handleRelease hp hc).trans (congrArg _ e), hend,
      (setLine_others s i _).trans hother, honly.of_setLine (by simp)⟩
  · have e := releaseHandle_pouring (s := s.setLine i open_) hm (hstate hs) (hpour hpr)
    rw [if_neg hmode] at e
    exact (exec_handleRelease hp hc).trans (congrArg _ e)
  · have e := releaseHandle_waiting (s := s.setLine i open_) hm (hstate hs)
    rw [if_pos ((hasHandleEntry_iff (s.setLine i open_) i).mpr he)] at e
    obtain ⟨hset, hother, honly⟩ := setState_spec i .ready (removeStart i (s.setLine i open_))
    rw [removeStart_line, hline] at hset
    exact ⟨_, (exec_handleRelease hp hc).trans (congrArg _ e), hset,
      (setLine_others s i _).trans hother, honly .starts (by simp),
      (((removeStart_only i _).mono (by simp)).trans (honly.mono (by simp))).of_setLine (by simp)⟩
  · have e := releaseHandle_waiting (s := s.setLine i open_) hm (hstate hs)
    rw [if_neg ((hasHandleEntry_iff (s.setLine i open_) i).not.mpr
      fun ⟨e, hmem, hl, hk⟩ => he e hmem hl hk)] at e
    exact (exec_handleRelease hp hc).trans (congrArg _ e)
  · have e := releaseHandle_idle (s := s.setLine i open_) (i := i)
      (.inr ⟨by rw [hline]; exact hs', by rw [hline]; exact hs⟩)
    exact (exec_handleRelease hp hc).trans (congrArg _ e)
  · cases hc : s.configured i with
    | false => simp [exec, execHandleRelease, powered, hp, hc, takeHandle, open_, l]
    | true =>
      have e := releaseHandle_idle (s := s.setLine i open_) (i := i)
        (.inl (h.resolve_left (by simp [hc])))
      exact (exec_handleRelease hp hc).trans (congrArg _ e)
  · refine ⟨refuseEntry i .ready s, ?_, refuseEntry_spec i .ready s⟩
    simp [exec, execKeyEntryExpiry, powered, hp, (hasKeyEntry_iff s i).mpr h]

end Sys2Proof.Machine

/-! SUPPORT. The timers of the block and their statement (R6, R7, R18, R65, R145). -/

namespace Sys2Proof.Machine

/-- A cause of R19 ends a pour that is POURING. -/
theorem endIfPouring_pouring {i : LineNo} (reason : EndReason) {s : State} {p : PourCtx}
    (hs : (s.line i).state = .pouring) (hp : (s.line i).pour = some p) :
    PourEnds i reason p s (endIfPouring i reason s) := by
  rw [endIfPouring, if_pos hs]
  exact endPour_spec i reason s p hp

theorem endIfPouring_idle {i : LineNo} (reason : EndReason) {s : State}
    (hs : (s.line i).state ≠ .pouring) : endIfPouring i reason s = s := if_neg hs

theorem exec_noFlowExpiry {s : State} (i : LineNo) (hp : s.rstnLow = false) :
    exec (.noFlowExpiry i) s = .next (endIfPouring i .noFlow s) := by
  simp [exec, execNoFlowExpiry, powered, hp]

theorem exec_pourTimerExpiry {s : State} (i : LineNo) (hp : s.rstnLow = false) :
    exec (.pourTimerExpiry i) s = .next (endIfPouring i .timeLimit s) := by
  simp [exec, execPourTimerExpiry, powered, hp]

/-- Settles O32: each timer's expiry is one operation on its line or on the station. -/
theorem blockTimers : Obligations.BlockTimers := by
  intro s i hp
  refine ⟨fun hf => ?_, fun since hv => ⟨?_, ?_⟩, fun hl => ?_, fun p hs hpour => ⟨?_, ?_⟩,
    fun hs => ⟨?_, ?_⟩, fun hs => ⟨?_, ?_⟩, ?_⟩
  · refine ⟨_, ?_, relamp_setLine i s { s.line i with flashFrom := none }⟩
    simp [exec, execRefuseFlashEnd, powered, hp, hf]
  · simp [exec, execValveHoldDrive, powered, hp, hv, setValve]
  · simp [vlvPin, hp]
  · have hb : (blinkTime (s.line i).lamp).isSome = true := by
      rcases hl with hl | hl | hl <;> simp [hl, blinkTime]
    simp [exec, execLampBlinkPhase, powered, hp, hb]
  · exact ⟨_, exec_noFlowExpiry i hp, endIfPouring_pouring .noFlow hs hpour⟩
  · exact ⟨_, exec_pourTimerExpiry i hp, endIfPouring_pouring .timeLimit hs hpour⟩
  · rw [exec_noFlowExpiry i hp, endIfPouring_idle .noFlow hs]
  · rw [exec_pourTimerExpiry i hp, endIfPouring_idle .timeLimit hs]
  · simp [exec, execStationSecondsTick, powered, hp, hs]
  · simp [exec, execGlycolFrameStart, powered, hp, hs, glycolFrame]
  · simp [exec, execGlycolOnTimeEnd, powered, hp]

end Sys2Proof.Machine

/-! SUPPORT. What several lines become, refusals from the list, and setting EMPTY (R12, R85, R86). -/

namespace Sys2Proof.Machine

/-! ## What lines become under operations on several lines -/

/-- What a line becomes stands while the line, and what its lamp reads, stand. -/
theorem LineBecomes.congr {t u : State} {i : LineNo} {l : Line} {ps : List Part}
    (h : LineBecomes t i l) (hline : u.line i = t.line i) (hu : Only ps t u)
    (hps : Part.config ∉ ps ∧ Part.sources ∉ ps ∧ Part.cool ∉ ps) : LineBecomes u i l := by
  obtain ⟨hsans, hlamp⟩ := h
  refine ⟨by rw [hline]; exact hsans, ?_⟩
  rw [hline, hlamp]
  exact (lampPattern_congr (hu .config hps.1) (hu .sources hps.2.1)
    (congrArg Cooling.warmHold (hu .cool hps.2.2)) (by rw [hline]) (by rw [hline])).symm

section several

variable {ps : List Part} {f : LineNo → State → State} {is : List LineNo} {i : LineNo} {s : State}
  {l : Line}

/-- What an operation makes of its own line, on several lines. -/
theorem overLines_becomes (hf : ∀ i s, OtherLines i s (f i s)) (hps : ∀ i s, Only ps s (f i s))
    (hread : Part.config ∉ ps ∧ Part.sources ∉ ps ∧ Part.cool ∉ ps) (hn : is.Nodup) (hi : i ∈ is)
    (h : ∀ u, Only ps s u → u.line i = s.line i → LineBecomes (f i u) i l) :
    LineBecomes (overLines f is s) i l := by
  obtain ⟨u, hu, hline, hend, hrest⟩ := overLines_at hf hps hn hi s
  exact (h u hu hline).congr hend hrest hread

/-- The same for a line whose lamp is left out of account. -/
theorem overLines_sansLamp (hf : ∀ i s, OtherLines i s (f i s)) (hps : ∀ i s, Only ps s (f i s))
    (hn : is.Nodup) (hi : i ∈ is)
    (h : ∀ u, Only ps s u → u.line i = s.line i → ((f i u).line i).sansLamp = l.sansLamp) :
    ((overLines f is s).line i).sansLamp = l.sansLamp := by
  obtain ⟨u, hu, hline, hend, -⟩ := overLines_at hf hps hn hi s
  rw [hend]
  exact h u hu hline

end several

/-! ## Refusals from the list -/

theorem overLines_refuseEntry_starts (st : LineState) (is : List LineNo) (s : State) :
    (overLines (fun i => refuseEntry i st) is s).starts =
      s.starts.filter fun e => !is.contains e.line := by
  induction is generalizing s with
  | nil => simp
  | cons i rest ih =>
    rw [overLines_cons, ih, (refuseEntry_spec i st s).2.2.1, List.filter_filter]
    refine List.filter_congr fun e _ => ?_
    by_cases h : e.line = i <;> simp [h]

/-- Several entries leave the list with refusal, their lines taking a state (R12). -/
theorem overLines_refuseEntry (st : LineState) {is : List LineNo} (hn : is.Nodup) (s : State) :
    (∀ i ∈ is, LineBecomes (overLines (fun i => refuseEntry i st) is s) i
        { s.line i with state := st, flashFrom := some s.now }) ∧
      (∀ i, i ∉ is → (overLines (fun i => refuseEntry i st) is s).line i = s.line i) ∧
      Only [.lines, .starts] s (overLines (fun i => refuseEntry i st) is s) := by
  have hf : ∀ i s, OtherLines i s (refuseEntry i st s) := fun i s => (refuseEntry_spec i st s).2.1
  have hps : ∀ i s, Only [.lines, .starts] s (refuseEntry i st s) :=
    fun i s => (refuseEntry_spec i st s).2.2.2
  refine ⟨fun i hi => overLines_becomes hf hps (by simp) hn hi fun u hu hline => ?_,
    fun i hi => overLines_others hf is s i hi, overLines_only hps is s⟩
  have h := (refuseEntry_spec i st u).1
  rwa [hline, show u.now = s.now from hu .now (by simp)] at h

/-! ## Lamps that follow several lines -/

/-- A lamp that follows leaves every line but for its lamp, and every lamp that is right. -/
theorem relamp_keeps (i j : LineNo) (s : State) : ((relamp i s).line j).sansLamp = (s.line j).sansLamp ∧
    ((s.line j).lamp = lampPattern s j → ((relamp i s).line j).lamp = lampPattern (relamp i s) j) := by
  by_cases h : j = i
  · subst h
    exact ⟨(relamp_line j s).1, fun _ => (relamp_line j s).2⟩
  · have hl := relamp_others i s j h
    refine ⟨by rw [hl], fun hj => ?_⟩
    rw [hl, hj]
    exact (lampPattern_congr (s := s) (t := relamp i s) rfl rfl rfl (by rw [hl]) (by rw [hl])).symm

theorem overLines_relamp_keeps (is : List LineNo) (j : LineNo) (s : State) :
    ((overLines relamp is s).line j).sansLamp = (s.line j).sansLamp ∧
      ((s.line j).lamp = lampPattern s j →
        ((overLines relamp is s).line j).lamp = lampPattern (overLines relamp is s) j) := by
  induction is generalizing s with
  | nil => exact ⟨rfl, id⟩
  | cons i rest ih =>
    obtain ⟨hs, hl⟩ := relamp_keeps i j s
    obtain ⟨hs', hl'⟩ := ih (relamp i s)
    exact ⟨hs'.trans hs, fun h => hl' (hl h)⟩

/-! ## EMPTY -/

theorem setEmpty_empty {x : SourceNo} {s : State} (h : (s.source x).empty = true) :
    setEmpty x s = s := by
  simp [setEmpty, h]

/-- The entries of a source's lines leave the list, those of other sources stay (R86). -/
theorem refuseSource_starts (x : SourceNo) (s : State) :
    (refuseSource x s).starts = s.starts.filter fun e => (s.lineCfg e.line).source != x := by
  rw [refuseSource, overLines_refuseEntry_starts]
  refine List.filter_congr fun e he => ?_
  have hmem : ∃ a ∈ s.starts, a.line = e.line := ⟨e, he, rfl⟩
  by_cases h : (s.lineCfg e.line).source = x <;> simp [h, hmem]

/-- EMPTY is set where it was clear (R86): the source, the attention set, the request for a STATUS, the
entries of its lines, and every line. -/
theorem setEmpty_spec (x : SourceNo) (s : State) (he : (s.source x).empty = false)
    (hn : (s.starts.map StartEntry.line).Nodup) :
    (setEmpty x s).source x = { s.source x with empty := true } ∧
      OtherSources x s (setEmpty x s) ∧ (setEmpty x s).attn = s.attn.set .sourceEmpty ∧
      (s.station ≠ .unconfigured → StatusRequested s (setEmpty x s)) ∧
      (setEmpty x s).starts = (s.starts.filter fun e => (s.lineCfg e.line).source != x) ∧
      ∀ j, if (s.lineCfg j).source = x ∧ j ∈ s.starts.map StartEntry.line then
          LineBecomes (setEmpty x s) j { s.line j with state := .ready, flashFrom := some s.now }
        else ((setEmpty x s).line j).sansLamp = (s.line j).sansLamp := by
  obtain ⟨u, hu⟩ : ∃ u, u = requestStatus (raise .sourceEmpty
    (s.setSource x { s.source x with empty := true })) := ⟨_, rfl⟩
  obtain ⟨v, hv⟩ : ∃ v, v = refuseSource x u := ⟨_, rfl⟩
  have e : setEmpty x s = overLines relamp (v.linesOn x) v := by
    rw [hv, hu]; simp [setEmpty, he, emptyEffects, relampSource]
  have hsu : Only [.sources, .attn, .link] s u := by
    rw [hu]
    exact (((setSource_only s x _).mono (by simp)).trans ((raise_only _ _).mono (by simp))).trans
      ((requestStatus_only _).mono (by simp))
  have hsource : u.sources = (s.setSource x { s.source x with empty := true }).sources := by
    rw [hu]; exact requestStatus_only _ .sources (by simp)
  have hattn : u.attn = s.attn.set .sourceEmpty := by
    rw [hu]; exact requestStatus_only _ .attn (by simp)
  have hstarts : u.starts = s.starts := hsu .starts (by simp)
  have hcfg : u.config = s.config := hsu .config (by simp)
  have hln : u.lines = s.lines := hsu .lines (by simp)
  have hnow : u.now = s.now := hsu .now (by simp)
  obtain ⟨is, his⟩ : ∃ is, is = (u.starts.map StartEntry.line).filter
    fun i => (u.lineCfg i).source == x := ⟨_, rfl⟩
  have hmem : ∀ j, j ∈ is ↔ (s.lineCfg j).source = x ∧ j ∈ s.starts.map StartEntry.line := by
    intro j
    rw [his, List.mem_filter, hstarts, lineCfg_congr hcfg, beq_iff_eq, and_comm]
  have hv' : v = overLines (fun i => refuseEntry i .ready) is u := by rw [hv, refuseSource, his]
  obtain ⟨hin, hout, huv⟩ := overLines_refuseEntry .ready
    (is := is) (by rw [his, hstarts]; exact hn.filter _) u
  rw [← hv'] at hin hout huv
  have hvt : Only [.lines] v (setEmpty x s) := by rw [e]; exact overLines_only relamp_only _ _
  have hsrc : (setEmpty x s).sources = (s.setSource x { s.source x with empty := true }).sources :=
    ((hvt .sources (by simp)).trans (huv .sources (by simp))).trans hsource
  refine ⟨?_, fun y hy => ?_, ?_, fun hs => ?_, ?_, fun j => ?_⟩
  · rw [source_congr hsrc]; exact source_setSource_same s x _
  · rw [source_congr hsrc]; exact source_setSource_ne s _ hy
  · exact ((hvt .attn (by simp)).trans (huv .attn (by simp))).trans hattn
  · have hreq := (requestStatus_spec (raise .sourceEmpty
      (s.setSource x { s.source x with empty := true })) hs).1
    rw [← hu] at hreq
    have hl : (setEmpty x s).link = u.link := (hvt .link (by simp)).trans (huv .link (by simp))
    unfold StatusRequested at hreq ⊢
    rw [hl, hreq]; rfl
  · rw [show (setEmpty x s).starts = v.starts from hvt .starts (by simp), hv, refuseSource_starts,
      hstarts]
    exact List.filter_congr fun e _ => by rw [lineCfg_congr hcfg]
  · obtain ⟨hsans, hlamp⟩ := overLines_relamp_keeps (v.linesOn x) j v
    rw [← e] at hsans hlamp
    split
    · next h =>
      obtain ⟨hsans', hlamp'⟩ := hin j ((hmem j).mpr h)
      rw [line_congr hln, hnow] at hsans'
      exact ⟨hsans.trans hsans', hlamp hlamp'⟩
    · next h =>
      rw [hsans, hout j fun hj => h ((hmem j).mp hj), line_congr hln]

end Sys2Proof.Machine

/-! SUPPORT. A pulse on a line with a pour (R17, R20, R34 to R37) and its statement. -/

namespace Sys2Proof.Machine

/-- The class of a pulse of a pour, taken at the present moment (R35). -/
def pulseFoam (s : State) (i : LineNo) (p : PourCtx) : Bool :=
  isFoam (s.lineCfg i) p (pulseInterval (s.line i) s.now)

/-- The consecutive-foam count that a pulse leaves (R36). -/
def pulseRun (s : State) (i : LineNo) (p : PourCtx) : Nat :=
  foamRunAfter (pulseFoam s i p) p (s.line i).consecFoam

/-- The line that a pulse leaves, with a pour context (R34). -/
def pulsedLine (s : State) (i : LineNo) (p q : PourCtx) : Line :=
  { s.line i with pour := some q, consecFoam := pulseRun s i p, intervalFrom := some s.now }

section pulse

variable {s : State} {i : LineNo} {p : PourCtx}

/-- In AFTER-RUN a pulse is counted, and ends nothing (R20). -/
theorem pourPulse_afterRun (hs : (s.line i).state = .afterRun) : pourPulse i p s =
    s.setLine i (pulsedLine s i p (countPulse (pulseFoam s i p) p)) := by
  simp [pourPulse, hs, pulsedLine, pulseRun, pulseFoam]

/-- While POURING a pulse is counted, restarts the no-flow timer and meets the tests of R17. -/
theorem pourPulse_pouring {q : PourCtx} (hs : (s.line i).state = .pouring)
    (hq : q = { countPulse (pulseFoam s i p) p with noFlowFrom := s.now }) : pourPulse i p s =
      match pulseEnd (s.lineCfg i) q (pulseRun s i p) with
      | some .foamOut => setEmpty (s.lineCfg i).source
          (endPour i .foamOut (s.setLine i (pulsedLine s i p q)))
      | some r => endPour i r (s.setLine i (pulsedLine s i p q))
      | none => s.setLine i (pulsedLine s i p q) := by
  subst hq
  simp only [pourPulse, hs, pulsedLine, pulseRun, pulseFoam, beq_self_eq_true, if_true] <;> rfl

theorem takePulse_pour (hc : s.configured i = true) (hp : (s.line i).pour = some p)
    (hs : (s.line i).state = .pouring ∨ (s.line i).state = .afterRun) :
    takePulse i s = pourPulse i p s := by
  rcases hs with hs | hs <;> simp [takePulse, hc, hs, hp]

theorem exec_meterPulse (i : LineNo) (hr : s.rstnLow = false) : exec (.meterPulse i) s =
    .next (takePulse i (s.setLine i { s.line i with meter := .taken true })) := by
  simp [exec, execMeterPulse, powered, hr, takeMeter]

end pulse

/-- The tests of a pulse, in the order of R17. -/
theorem pulseEnd_target {c : LineCfg} {q : PourCtx} {n : Nat}
    (h : ∃ m, q.pulseTarget = some m ∧ m ≤ q.total - q.foam) : pulseEnd c q n = some .target := by
  obtain ⟨m, hm, hle⟩ := h
  simp [pulseEnd, hm, hle]

section tests

variable {c : LineCfg} {q : PourCtx} {n : Nat}
  (h : ¬ ∃ m, q.pulseTarget = some m ∧ m ≤ q.total - q.foam)

include h

theorem pulseEnd_no_target : pulseEnd c q n =
    if c.foamRun ≤ n then some .foamOut else if 65535 ≤ q.total then some .overrange else none := by
  have ht : ((q.pulseTarget.map fun t => decide (t ≤ q.total - q.foam)).getD false) = false := by
    cases hq : q.pulseTarget with
    | none => rfl
    | some m => simpa using fun hle => h ⟨m, hq, hle⟩
  rw [pulseEnd, ht]
  rfl

end tests

/-- FOAM-OUT ends the pour and sets the source EMPTY (R17, R86). -/
theorem endPour_setEmpty_spec {i : LineNo} {q : PourCtx} {s : State}
    (hp : (s.line i).pour = some q) (he : (s.source (s.lineCfg i).source).empty = false)
    (hn : (s.starts.map StartEntry.line).Nodup) (hi : i ∉ s.starts.map StartEntry.line) :
    let x := (s.lineCfg i).source
    let t := setEmpty x (endPour i .foamOut s)
    (t.line i).sansLamp = (endedLine s.now .foamOut (s.line i) q).sansLamp ∧
      t.source x = { s.source x with empty := true } ∧ OtherSources x s t ∧
      t.attn = s.attn.set .sourceEmpty ∧ (s.station ≠ .unconfigured → StatusRequested s t) ∧
      t.starts = (s.starts.filter fun e => (s.lineCfg e.line).source != x) ∧
      ∀ j, j ≠ i → if (s.lineCfg j).source = x ∧ j ∈ s.starts.map StartEntry.line then
          LineBecomes t j { s.line j with state := .ready, flashFrom := some s.now }
        else (t.line j).sansLamp = (s.line j).sansLamp := by
  obtain ⟨hline, hother, honly⟩ := endPour_spec i .foamOut s q hp
  generalize endPour i .foamOut s = u at hline hother honly
  have hsrc : u.sources = s.sources := honly .sources (by simp)
  have hst : u.starts = s.starts := honly .starts (by simp)
  have hcfg : u.config = s.config := honly .config (by simp)
  obtain ⟨hempty, hsources, hattn, hreq, hstarts, hlines⟩ := setEmpty_spec (s.lineCfg i).source u
    (by rw [source_congr hsrc]; exact he) (by rw [hst]; exact hn)
  rw [source_congr hsrc] at hempty
  refine ⟨?_, hempty, fun y hy => ?_, ?_, fun hs => ?_, ?_, fun j hj => ?_⟩
  · have h := hlines i
    rw [if_neg (by rw [hst]; exact fun h => hi h.2)] at h
    exact h.trans hline.1
  · rw [hsources y hy, source_congr hsrc]
  · rw [hattn, show u.attn = s.attn from honly .attn (by simp)]
  · exact StatusRequested.of_link
      (hreq (by rw [show u.station = s.station from honly .station (by simp)]; exact hs))
      (honly .link (by simp))
  · rw [hstarts, hst]
    exact List.filter_congr fun e _ => by rw [lineCfg_congr hcfg]
  · have h := hlines j
    rwa [lineCfg_congr hcfg, hst, hother j hj, show u.now = s.now from honly .now (by simp)] at h

end Sys2Proof.Machine

namespace Sys2Proof

open Machine

/-- Settles O33: the counts of the pulse, and then the first of R17's tests that it meets. -/
theorem pourPulse : Obligations.PourPulse := by
  intro s i p hr hc hp c l interval foam counted consec after
  obtain ⟨s0, hs0⟩ : ∃ s0, s0 = s.setLine i l := ⟨_, rfl⟩
  have hline : s0.line i = l := by rw [hs0]; exact line_setLine_same s i l
  have hcfg : s0.lineCfg i = c := by rw [hs0]; rfl
  have hnow : s0.now = s.now := by rw [hs0]; rfl
  have hfoam : pulseFoam s0 i p = decide foam := by
    have hint : pulseInterval l s.now = interval := by
      simp only [pulseInterval, intervalTicks, sat, elapsed, meterTick, max16, interval] <;> rfl
    rw [pulseFoam, hcfg, hline, hnow, hint, Bool.eq_iff_iff]
    simp [isFoam, foam, and_assoc]
  have hcount : countPulse (pulseFoam s0 i p) p = counted := by
    rw [hfoam]
    simp [countPulse, counted, max16]
  have hrun : pulseRun s0 i p = consec := by
    rw [pulseRun, hfoam, hline]
    by_cases h : foam <;> simp only [foamRunAfter, satInc, consec, h, decide_true, decide_false] <;> rfl
  have hafter : ∀ q, s0.setLine i (pulsedLine s0 i p q) = s.setLine i (after q) := by
    intro q
    simp only [pulsedLine, hrun, hline, hnow, after]
    rw [hs0, setLine_setLine]
  have hexec : l.state = .pouring ∨ l.state = .afterRun →
      exec (.meterPulse i) s = .next (Machine.pourPulse i p s0) := by
    intro hs
    rw [exec_meterPulse i hr, ← takePulse_pour (s := s0) (by rw [hs0]; exact hc)
      (by rw [hline]; exact hp) (by rw [hline]; exact hs), hs0]
  refine ⟨fun hs => ?_, fun hs => ?_⟩
  · rw [hexec (.inr hs), pourPulse_afterRun (by rw [hline]; exact hs), hcount, hafter]
  · intro q s1 target
    have hq : q = { countPulse (pulseFoam s0 i p) p with noFlowFrom := s0.now } := by
      rw [hcount, hnow]
    have hpulse := pourPulse_pouring (s := s0) (i := i) (p := p) (by rw [hline]; exact hs) hq
    rw [hafter, hcfg, hrun] at hpulse
    have hpour : (s1.line i).pour = some q := by simp [s1, after]
    refine ⟨fun ht => ?_, fun ht hfo hok => ?_, fun ht hfo htot => ?_, fun ht hfo htot => ?_⟩
    · rw [pulseEnd_target ht] at hpulse
      exact ⟨_, (hexec (.inl hs)).trans (congrArg _ hpulse), endPour_spec i .target s1 q hpour⟩
    · rw [pulseEnd_no_target ht, if_pos hfo] at hpulse
      refine ⟨_, (hexec (.inl hs)).trans (congrArg _ hpulse), ?_⟩
      obtain ⟨hnodup, hwait⟩ := hok
      have hi : i ∉ s.starts.map StartEntry.line := fun hi => by
        have := (hwait i).mpr hi
        simp [show (s.line i).state = .pouring from hs] at this
      have hs1line : s1.line i = after q := line_setLine_same s i _
      have hs1 : Only [.lines] s s1 := setLine_only s i _
      have honly : Only [.lines, .starts, .link, .attn, .sources] s
          (setEmpty c.source (endPour i .foamOut s1)) :=
        (hs1.mono (by simp)).trans (((endPour_spec i .foamOut s1 q hpour).2.2.mono (by simp)).trans
          (setEmpty_only _ _))
      cases he : (s.source c.source).empty with
      | true =>
        obtain ⟨hline', hother, hfr⟩ := endPour_spec i .foamOut s1 q hpour
        have hsrc : (endPour i .foamOut s1).sources = s.sources := hfr .sources (by simp)
        have hset : setEmpty c.source (endPour i .foamOut s1) = endPour i .foamOut s1 :=
          setEmpty_empty (by rw [source_congr hsrc]; exact he)
        rw [hset] at honly ⊢
        refine ⟨by rw [hline'.1, hs1line]; rfl, ?_, fun y _ => source_congr hsrc y,
          fun _ => ⟨hline', hother, hfr⟩, fun h => by simp at h, fun h => by simp at h,
          fun h => by simp at h, fun j hj => ?_, honly⟩
        · rw [source_congr hsrc, ← he]
        · rw [if_neg (by simp), hother j hj, line_setLine_ne s _ hj]
      | false =>
        obtain ⟨hline', hsource, hother, hattn, hreq, hstarts, hlines⟩ := endPour_setEmpty_spec
          (s := s1) hpour he hnodup hi
        rw [hs1line] at hline'
        refine ⟨hline', hsource, hother, fun h => by simp at h, fun _ => hattn, fun _ => hreq,
          fun _ => hstarts, fun j hj => ?_, honly⟩
        have h := hlines j hj
        rw [line_setLine_ne s _ hj] at h
        split at h
        · next hc => exact (if_pos ⟨rfl, hc⟩).mpr h
        · next hc => exact (if_neg fun h' => hc h'.2).mpr h
    · rw [pulseEnd_no_target ht, if_neg (Nat.not_le.mpr hfo), if_pos htot] at hpulse
      exact ⟨_, (hexec (.inl hs)).trans (congrArg _ hpulse), endPour_spec i .overrange s1 q hpour⟩
    · rw [pulseEnd_no_target ht, if_neg (Nat.not_le.mpr hfo), if_neg (Nat.not_le.mpr htot)] at hpulse
      exact (hexec (.inl hs)).trans (congrArg _ hpulse)

end Sys2Proof

/-! SUPPORT. Records written and volumes drawn: the attention flags, own cumulative and the low test (R69,
R76, R82, R84). -/

namespace Sys2Proof.Machine

/-! ## The figures of a source -/

theorem drawn_congr {s t : State} {x : SourceNo} (hp : t.peers = s.peers)
    (hg : (t.source x).gen = (s.source x).gen) (ho : (t.source x).own = (s.source x).own)
    (hc : (t.source x).carry = (s.source x).carry) : t.drawn x = s.drawn x := by
  simp only [State.drawn, State.peerDraw, State.peerList, hp, hg, ho, hc]

/-- The low test sets LOW where the full volume is known and what remains is within the threshold (R84). -/
theorem lowTest_spec (x : SourceNo) (s : State) :
    (lowTest x s).source x = { s.source x with low := ((lowTest x s).source x).low } ∧
      (((lowTest x s).source x).low = true ↔ (s.source x).low = true ∨
        ((s.source x).full ≠ 0 ∧ (s.source x).full - s.drawn x ≤ s.cfg.lowThreshold[x])) ∧
      OtherSources x s (lowTest x s) ∧
      (lowTest x s).attn = if ((lowTest x s).source x).low && !(s.source x).low
        then s.attn.set .sourceLow else s.attn := by
  by_cases hf : (s.source x).full = 0
  · have e : lowTest x s = s := by simp [lowTest, State.remaining, hf]
    rw [e]
    exact ⟨rfl, by simp [hf], fun _ _ => rfl, by simp⟩
  · by_cases h : (s.source x).full - s.drawn x ≤ s.cfg.lowThreshold[x] ∧ (s.source x).low = false
    · have e : lowTest x s = raise .sourceLow (s.setSource x { s.source x with low := true }) := by
        simp only [lowTest, State.remaining, hf, h.1, h.2, if_false, decide_true, Bool.not_false,
          Bool.and_self, if_true]
      rw [e, raise_source, source_setSource_same]
      exact ⟨rfl, ⟨fun _ => .inr ⟨hf, h.1⟩, fun _ => rfl⟩, fun y hy => source_setSource_ne s _ hy, by simp [h.2]⟩
    · have e : lowTest x s = s := by
        simp only [lowTest, State.remaining, hf, if_false, Bool.and_eq_true, decide_eq_true_eq,
          Bool.not_eq_true', h]
      rw [e]
      refine ⟨rfl, ⟨.inl, fun hl => ?_⟩, fun _ _ => rfl, by simp⟩
      rcases hl with hl | ⟨-, hle⟩
      · exact hl
      · simpa using fun hlow => h ⟨hle, hlow⟩

/-- A volume drawn raises own cumulative, saturating, and makes the low test (R82, R84). -/
theorem addOwn_spec (x : SourceNo) (v : Nat) (s : State) :
    (addOwn x v s).source x = { s.source x with
      own := min ((s.source x).own + v) 4294967295, low := ((addOwn x v s).source x).low } ∧
    (((addOwn x v s).source x).low = true ↔ (s.source x).low = true ∨ ((s.source x).full ≠ 0 ∧
      (s.source x).full - (addOwn x v s).drawn x ≤ s.cfg.lowThreshold[x])) ∧
    OtherSources x s (addOwn x v s) ∧
    (addOwn x v s).attn = if ((addOwn x v s).source x).low && !(s.source x).low
      then s.attn.set .sourceLow else s.attn := by
  obtain ⟨u, hu⟩ : ∃ u, u = s.setSource x { s.source x with own := sat max32 ((s.source x).own + v) } :=
    ⟨_, rfl⟩
  have e : addOwn x v s = lowTest x u := by rw [hu]; rfl
  obtain ⟨hsource, hlow, hother, hattn⟩ := lowTest_spec x u
  have hux : u.source x = { s.source x with own := sat max32 ((s.source x).own + v) } := by
    rw [hu, source_setSource_same]
  have hdrawn : (lowTest x u).drawn x = u.drawn x :=
    drawn_congr (lowTest_only x u .peers (by simp)) (by rw [hsource]) (by rw [hsource])
      (by rw [hsource])
  rw [← hdrawn, hux] at hlow
  rw [hux] at hsource hattn
  rw [e]
  refine ⟨by rw [hsource]; rfl, ?_, fun y hy => ?_, ?_⟩
  · rw [hlow, hu]; rfl
  · rw [hother y hy, hu, source_setSource_ne s _ hy]
  · rw [hattn, hu]; rfl

/-! ## The attention flags of a write -/

theorem set_sourceLow_if (a : Attention) (b : Bool) :
    (if b then a.set .sourceLow else a) = { a with sourceLow := a.sourceLow || b } := by
  cases b <;> simp [Attention.set]

theorem set_journalLevel_if (a : Attention) (b : Bool) :
    (if b then a.set .journalLevel else a) = { a with journalLevel := a.journalLevel || b } := by
  cases b <;> simp [Attention.set]

theorem set_lineLocked_if (a : Attention) (b : Bool) :
    (if b then a.set .lineLocked else a) = { a with lineLocked := a.lineLocked || b } := by
  cases b <;> simp [Attention.set]

/-- Records have been written from one state to another: none has left, LOW stays where it was, and the
attention set has what the writes set (R76, R84). -/
def Wrote (s t : State) : Prop :=
  t.attn = attnWritten s t ∧ s.journal.records.length ≤ t.journal.records.length ∧
    (∀ x, (s.source x).low = true → (t.source x).low = true) ∧ t.config = s.config

theorem mem_allSources (x : SourceNo) : x ∈ allSources := by
  revert x; decide

/-- Some source has become LOW. -/
theorem anyLow_iff (s t : State) : (allSources.any fun x => (t.source x).low && !(s.source x).low) = true ↔
    ∃ x, (t.source x).low = true ∧ (s.source x).low = false := by
  simp [mem_allSources]

theorem Wrote.refl (s : State) : Wrote s s := by
  refine ⟨?_, le_refl _, fun _ => id, rfl⟩
  have hany : (allSources.any fun x => (s.source x).low && !(s.source x).low) = false := by
    simp
  have hlen : (decide (s.journal.records.length < s.cfg.threshold) &&
      decide (s.cfg.threshold ≤ s.journal.records.length)) = false := by
    simp
  simp only [attnWritten, hany, hlen, Bool.or_false]

theorem Wrote.trans {s t u : State} (h : Wrote s t) (h' : Wrote t u) : Wrote s u := by
  obtain ⟨hattn, hlen, hlow, hcfg⟩ := h
  obtain ⟨hattn', hlen', hlow', hcfg'⟩ := h'
  refine ⟨?_, hlen.trans hlen', fun x hx => hlow' x (hlow x hx), hcfg'.trans hcfg⟩
  have hthr : t.cfg.threshold = s.cfg.threshold := by simp only [State.cfg, hcfg]
  have hjournal : ((decide (s.journal.records.length < s.cfg.threshold) &&
        decide (s.cfg.threshold ≤ t.journal.records.length)) ||
      (decide (t.journal.records.length < s.cfg.threshold) &&
        decide (s.cfg.threshold ≤ u.journal.records.length))) =
      (decide (s.journal.records.length < s.cfg.threshold) &&
        decide (s.cfg.threshold ≤ u.journal.records.length)) := by
    rw [Bool.eq_iff_iff]
    simp only [Bool.or_eq_true, Bool.and_eq_true, decide_eq_true_eq]
    omega
  have hsource : ((allSources.any fun x => (t.source x).low && !(s.source x).low) ||
      (allSources.any fun x => (u.source x).low && !(t.source x).low)) =
      (allSources.any fun x => (u.source x).low && !(s.source x).low) := by
    rw [Bool.eq_iff_iff, Bool.or_eq_true, anyLow_iff, anyLow_iff, anyLow_iff]
    constructor
    · rintro (⟨x, ht, hs⟩ | ⟨x, hu, ht⟩)
      · exact ⟨x, hlow' x ht, hs⟩
      · refine ⟨x, hu, ?_⟩
        have := (hlow x).mt (by simp [ht])
        simpa using this
    · rintro ⟨x, hu, hs⟩
      cases ht : (t.source x).low with
      | true => exact .inl ⟨x, ht, hs⟩
      | false => exact .inr ⟨x, hu, ht⟩
  rw [hattn']
  simp only [attnWritten, hattn, hthr, Bool.or_assoc, hjournal, hsource]

/-- An operation that leaves the records, the sources and the attention set writes nothing. -/
theorem Wrote.of_only {s t : State} {ps : List Part} (h : Only ps s t)
    (hps : Part.config ∉ ps ∧ Part.sources ∉ ps ∧ Part.attn ∉ ps)
    (hrec : t.journal.records = s.journal.records) : Wrote s t := by
  have hsrc := fun x => source_congr (h .sources hps.2.1) x
  have e : attnWritten s t = attnWritten s s := by
    simp only [attnWritten, hrec, hsrc]
  refine ⟨?_, by rw [hrec], fun x hx => by rw [hsrc]; exact hx, h .config hps.1⟩
  rw [e, ← (Wrote.refl s).1]
  exact h .attn hps.2.2

theorem wrote_writeRecord (mk : BitVec 16 → Record) (s : State) : Wrote s (writeRecord mk s) := by
  obtain ⟨hjournal, hattn, honly⟩ := writeRecord_spec mk s
  have hsrc := fun x => source_congr (honly .sources (by simp)) x
  refine ⟨?_, by simp [hjournal], fun x hx => by rw [hsrc]; exact hx, honly .config (by simp)⟩
  have hlen : (decide (s.journal.records.length < s.cfg.threshold) &&
      decide (s.cfg.threshold ≤ s.journal.records.length + 1)) =
      decide (s.journal.records.length + 1 = s.cfg.threshold) := by
    rw [Bool.eq_iff_iff]
    simp only [Bool.and_eq_true, decide_eq_true_eq]
    omega
  have hany : (allSources.any fun x => (s.source x).low && !(s.source x).low) = false := by simp
  rw [hattn]
  simp only [attnWritten, hjournal, hsrc, List.length_append, List.length_singleton, hlen, hany,
    Bool.or_false]
  simpa using set_journalLevel_if s.attn (decide (s.journal.records.length + 1 = s.cfg.threshold))

theorem wrote_addOwn (x : SourceNo) (v : Nat) (s : State) : Wrote s (addOwn x v s) := by
  obtain ⟨-, hlow, hother, hattn⟩ := addOwn_spec x v s
  have honly := addOwn_only x v s
  have hkeep : ∀ y, (s.source y).low = true → ((addOwn x v s).source y).low = true := by
    intro y hy
    by_cases h : y = x
    · subst h; exact hlow.mpr (.inl hy)
    · rwa [hother y h]
  have hjournal : (addOwn x v s).journal = s.journal := honly .journal (by simp)
  refine ⟨?_, by rw [hjournal], hkeep, honly .config (by simp)⟩
  have hany : (allSources.any fun y => ((addOwn x v s).source y).low && !(s.source y).low) =
      (((addOwn x v s).source x).low && !(s.source x).low) := by
    rw [Bool.eq_iff_iff, anyLow_iff, Bool.and_eq_true, Bool.not_eq_true']
    refine ⟨fun ⟨y, hy, hs⟩ => ?_, fun h => ⟨x, h⟩⟩
    by_cases h : y = x
    · subst h; exact ⟨hy, hs⟩
    · rw [hother y h, hs] at hy; simp at hy
  have hlen : (decide (s.journal.records.length < s.cfg.threshold) &&
      decide (s.cfg.threshold ≤ s.journal.records.length)) = false := by simp
  rw [hattn, set_sourceLow_if]
  simp only [attnWritten, hjournal, hany, hlen, Bool.or_false]

end Sys2Proof.Machine

/-! SUPPORT. The completion of a pour (R22, R23, R176) and its statement. -/

namespace Sys2Proof.Machine

/-! ## The run leaves PREPARING -/

theorem enterClaiming_spec (s : State) :
    (enterClaiming s).clean = { s.clean with runState := .claiming, age := 0, ahead := 0 } ∧
      (s.station ≠ .unconfigured → StatusRequested s (enterClaiming s)) ∧
      Only [.clean, .link] s (enterClaiming s) := by
  obtain ⟨u, hu⟩ : ∃ u, u = modClean (fun c => { c with runState := .claiming, age := 0, ahead := 0 }) s :=
    ⟨_, rfl⟩
  have h1 : Only [.clean] s u := by rw [hu]; exact modClean_only _ s
  have e : enterClaiming s = requestStatus u := by rw [hu]; rfl
  have h2 := requestStatus_only u
  rw [e]
  refine ⟨(h2 .clean (by simp)).trans (by rw [hu]; rfl), fun hs => ?_,
    (h1.mono (by simp)).trans (h2.mono (by simp))⟩
  have hst : u.station ≠ .unconfigured := by rw [hu]; exact hs
  exact StatusRequested.of_link (requestStatus_spec u hst).1 (h1 .link (by simp))

/-- No selected line still has a pour (R176). -/
def NonePouring (s : State) : Prop :=
  ∀ j ∈ s.selected, (s.line j).state ≠ .pouring ∧ (s.line j).state ≠ .afterRun

theorem nonePouring_iff (s : State) :
    s.selected.any (stillPouring s) = false ↔ NonePouring s := by
  simp [NonePouring, stillPouring]

theorem checkPrepared_claiming {s : State} (hr : s.clean.runState = .preparing)
    (h : NonePouring s) : checkPrepared s = enterClaiming s := by
  simp [checkPrepared, hr, (nonePouring_iff s).mpr h]

theorem checkPrepared_stays {s : State} (h : ¬ (s.clean.runState = .preparing ∧ NonePouring s)) :
    checkPrepared s = s := by
  rw [checkPrepared, if_neg]
  rw [Bool.and_eq_true, decide_eq_true_eq, Bool.not_eq_true', nonePouring_iff]
  exact h

/-! ## Step 6: the next line state -/

/-- A FOAM-OUT end locks its line, unless the foam end was withdrawn or the line is marked (R22, R25). -/
def foamLocks (p : PourCtx) (l : Line) : Bool :=
  p.endReason == some .foamOut && !p.foamWithdrawn && !l.cleanMark

/-- The state that a completion gives its line (R22 step 6). -/
def completedState (s : State) (l : Line) (locks : Bool) : LineState :=
  if s.station ≠ .running then .off else if l.cleanMark then .reserved
  else if locks then .locked else .ready

/-- The completion lets the run leave PREPARING (R176). -/
def LastPrepared (s : State) (i : LineNo) : Prop :=
  (s.station = .running ∧ (s.line i).cleanMark = true) ∧ s.clean.runState = .preparing ∧
    ∀ j ∈ s.selected, j ≠ i → (s.line j).state ≠ .pouring ∧ (s.line j).state ≠ .afterRun

/-- The line state and the lock of step 6, before the run is looked at. -/
def settleLine (i : LineNo) (p : PourCtx) (s : State) : State :=
  let l := s.line i
  let s1 := s.setLine i { l with cleanMark := false }
  let s2 := if foamLocks p l then setLock i .foamOut s1 else s1
  setState i (completedState s l (foamLocks p l)) s2

theorem settleLine_spec (i : LineNo) (p : PourCtx) (s : State) :
    LineBecomes (settleLine i p s) i { s.line i with
        state := completedState s (s.line i) (foamLocks p (s.line i)),
        lock := if foamLocks p (s.line i) then .foamOut else (s.line i).lock, cleanMark := false } ∧
      OtherLines i s (settleLine i p s) ∧
      (settleLine i p s).attn =
        { s.attn with lineLocked := s.attn.lineLocked || foamLocks p (s.line i) } ∧
      Only [.lines, .attn] s (settleLine i p s) := by
  obtain ⟨s1, hs1⟩ : ∃ s1, s1 = s.setLine i { s.line i with cleanMark := false } := ⟨_, rfl⟩
  obtain ⟨s2, hs2⟩ : ∃ s2, s2 = if foamLocks p (s.line i) then setLock i .foamOut s1 else s1 := ⟨_, rfl⟩
  have h1 : OtherLines i s s1 ∧ Only [.lines] s s1 := by
    rw [hs1]; exact ⟨setLine_others s i _, setLine_only s i _⟩
  obtain ⟨hlock, hother, hattn, honly⟩ := setLock_spec i .foamOut s1
  have hline1 : s1.line i = { s.line i with cleanMark := false } := by rw [hs1, line_setLine_same]
  have h2 : s2.line i = { s.line i with
        lock := if foamLocks p (s.line i) then .foamOut else (s.line i).lock, cleanMark := false } ∧
      OtherLines i s1 s2 ∧
      s2.attn = { s.attn with lineLocked := s.attn.lineLocked || foamLocks p (s.line i) } ∧
      Only [.lines, .attn] s1 s2 := by
    rw [hline1] at hlock
    have ha : s1.attn = s.attn := h1.2 .attn (by simp)
    rw [hs2, ← set_lineLocked_if]
    cases foamLocks p (s.line i) with
    | true => exact ⟨hlock, hother, hattn.trans (by rw [ha]; rfl), honly⟩
    | false => exact ⟨hline1, OtherLines.refl i s1, ha, Only.refl _ s1⟩
  obtain ⟨hline2, hother2, hattn2, honly2⟩ := h2
  obtain ⟨hset, hother3, honly3⟩ := setState_spec i (completedState s (s.line i) (foamLocks p (s.line i))) s2
  have e : settleLine i p s =
      setState i (completedState s (s.line i) (foamLocks p (s.line i))) s2 := by
    rw [hs2, hs1]; rfl
  rw [hline2] at hset
  rw [e]
  refine ⟨hset, (h1.1.trans hother2).trans hother3, (honly3 .attn (by simp)).trans hattn2, ?_⟩
  exact ((h1.2.mono (by simp)).trans honly2).trans (honly3.mono (by simp))

/-- Step 6 settles the line, and then, where a marked line has become RESERVED, looks at the run. -/
theorem afterCompletion_eq (i : LineNo) (p : PourCtx) (s : State) : afterCompletion i p s =
    if s.station = .running ∧ (s.line i).cleanMark = true then checkPrepared (settleLine i p s)
    else settleLine i p s := by
  have hlocks : (p.endReason == some .foamOut && !p.foamWithdrawn && !(s.line i).cleanMark) =
      foamLocks p (s.line i) := rfl
  simp only [afterCompletion, settleLine, completedState, hlocks]
  cases hk : (s.line i).cleanMark with
  | true =>
    have hf : foamLocks p (s.line i) = false := by simp [foamLocks, hk]
    by_cases hr : s.station = .running <;> simp [hr, hf]
  | false =>
    by_cases hr : s.station = .running <;> cases foamLocks p (s.line i) <;> simp [hr]

/-- The run leaves PREPARING exactly when no selected line but this one still has a pour. -/
theorem nonePouring_settleLine (i : LineNo) (p : PourCtx) (s : State)
    (hr : s.station = .running) (hk : (s.line i).cleanMark = true) :
    ((settleLine i p s).clean.runState = .preparing ∧ NonePouring (settleLine i p s)) ↔
      LastPrepared s i := by
  obtain ⟨⟨hline, -⟩, hother, -, honly⟩ := settleLine_spec i p s
  have hclean : (settleLine i p s).clean = s.clean := honly .clean (by simp)
  have hsel : (settleLine i p s).selected = s.selected := by simp only [State.selected, hclean]
  have hstate : ((settleLine i p s).line i).state = .reserved := by
    have h := congrArg Line.state hline
    simpa [Line.sansLamp, completedState, hr, hk] using h
  rw [NonePouring, hclean, hsel, LastPrepared]
  refine ⟨fun ⟨hp, h⟩ => ⟨⟨hr, hk⟩, hp, fun j hj hji => ?_⟩, fun ⟨_, hp, h⟩ => ⟨hp, fun j hj => ?_⟩⟩
  · rw [← hother j hji]; exact h j hj
  · by_cases hji : j = i
    · subst hji; simp [hstate]
    · rw [hother j hji]; exact h j hj hji

theorem afterCompletion_spec (i : LineNo) (p : PourCtx) (s : State) :
    LineBecomes (afterCompletion i p s) i { s.line i with
        state := completedState s (s.line i) (foamLocks p (s.line i)),
        lock := if foamLocks p (s.line i) then .foamOut else (s.line i).lock, cleanMark := false } ∧
      OtherLines i s (afterCompletion i p s) ∧
      (afterCompletion i p s).attn =
        { s.attn with lineLocked := s.attn.lineLocked || foamLocks p (s.line i) } ∧
      Only [.lines, .attn, .link, .clean] s (afterCompletion i p s) ∧
      (LastPrepared s i → (afterCompletion i p s).clean =
          { s.clean with runState := .claiming, age := 0, ahead := 0 } ∧
        (s.station ≠ .unconfigured → StatusRequested s (afterCompletion i p s))) ∧
      (¬ LastPrepared s i → (afterCompletion i p s).clean = s.clean ∧
        (afterCompletion i p s).link = s.link) := by
  obtain ⟨hline, hother, hattn, honly⟩ := settleLine_spec i p s
  have hcl : (settleLine i p s).clean = s.clean := honly .clean (by simp)
  have hlk : (settleLine i p s).link = s.link := honly .link (by simp)
  by_cases h : LastPrepared s i
  · have hrk := h.1
    obtain ⟨hprep, hnone⟩ := (nonePouring_settleLine i p s hrk.1 hrk.2).mpr h
    have e : afterCompletion i p s = enterClaiming (settleLine i p s) := by
      rw [afterCompletion_eq, if_pos hrk, checkPrepared_claiming hprep hnone]
    obtain ⟨hclean, hreq, hfr⟩ := enterClaiming_spec (settleLine i p s)
    have hl := fun j => line_congr (hfr .lines (by simp)) j
    rw [e]
    refine ⟨hline.congr (hl i) hfr (by simp), fun j hj => (hl j).trans (hother j hj),
      (hfr .attn (by simp)).trans hattn, (honly.mono (by simp)).trans (hfr.mono (by simp)),
      fun _ => ⟨by rw [hclean, hcl], fun hs => ?_⟩, fun hn => absurd h hn⟩
    refine StatusRequested.of_link (hreq ?_) hlk
    rwa [show (settleLine i p s).station = s.station from honly .station (by simp)]
  · have e : afterCompletion i p s = settleLine i p s := by
      rw [afterCompletion_eq]
      split
      · next hrk =>
        exact checkPrepared_stays ((nonePouring_settleLine i p s hrk.1 hrk.2).not.mpr h)
      · rfl
    rw [e]
    exact ⟨hline, hother, hattn, honly.mono (by simp), fun hp => absurd hp h, fun _ => ⟨hcl, hlk⟩⟩

/-! ## Steps 1 to 5: the record, own cumulative and the line's figures -/

/-- The volume that a completion adds to own cumulative: the reported volume and the creep volume (R82). -/
def bookedVolume (p : PourCtx) : Nat :=
  pourVolume p.k p.g p.oq (p.total - p.foam) + ((creepFields p).map Prod.snd).getD 0

/-- The line whose pour is booked. -/
def bookedLine (l : Line) (p : PourCtx) : Line :=
  { l with
    pour := none, lastPour := some (lastPourOf p), consecFoam := 0, intervalFrom := none,
    afterRunFrom := none }

/-- The completion of a pour up to step 6 (R22). -/
def bookPour (i : LineNo) (p : PourCtx) (s : State) : State :=
  let x := (s.lineCfg i).source
  let s1 := addOwn x (bookedVolume p) (writeRecord (pourRecord i x (s.source x).gen p) s)
  { s1.setLine i (bookedLine (s1.line i) p) with pours := s1.pours - 1 }

/-- A completion books the pour, settles the line, serves the list and presents the remembered key. -/
theorem complete_eq (i : LineNo) (p : PourCtx) (s : State) :
    complete i p s = presentRemembered i (serve (afterCompletion i p (bookPour i p s))) := rfl

theorem bookPour_spec (i : LineNo) (p : PourCtx) (s : State) :
    let x := (s.lineCfg i).source
    let u := bookPour i p s
    u.journal = ⟨s.journal.records ++ [pourRecord i x (s.source x).gen p s.journal.seq],
      s.journal.reserved - 1, s.journal.seq + 1⟩ ∧
    u.pours = s.pours - 1 ∧ OtherSources x s u ∧ OtherLines i s u ∧
    u.line i = bookedLine (s.line i) p ∧
    u.source x = { s.source x with
      own := min ((s.source x).own + bookedVolume p) 4294967295, low := (u.source x).low } ∧
    ((u.source x).low = true ↔ (s.source x).low = true ∨ ((s.source x).full ≠ 0 ∧
      (s.source x).full - u.drawn x ≤ s.cfg.lowThreshold[x])) ∧
    u.attn = attnWritten s u ∧ Only [.lines, .pours, .journal, .sources, .attn] s u := by
  intro x u
  obtain ⟨w, hw⟩ : ∃ w, w = writeRecord (pourRecord i x (s.source x).gen p) s := ⟨_, rfl⟩
  obtain ⟨a, ha⟩ : ∃ a, a = addOwn x (bookedVolume p) w := ⟨_, rfl⟩
  have hu : u = { a.setLine i (bookedLine (a.line i) p) with pours := a.pours - 1 } := by
    rw [ha, hw]; rfl
  obtain ⟨hjournal, -, hsw⟩ := writeRecord_spec (pourRecord i x (s.source x).gen p) s
  rw [← hw] at hjournal hsw
  have hwa : Only [.sources, .attn] w a := by rw [ha]; exact addOwn_only x _ w
  have hau : Only [.lines, .pours] a u := by
    rw [hu]; intro q hq; cases q <;> simp_all [Part.same]
  have hln : a.lines = s.lines := (hwa .lines (by simp)).trans (hsw .lines (by simp))
  have hwsrc : w.sources = s.sources := hsw .sources (by simp)
  have husrc : u.sources = a.sources := hau .sources (by simp)
  obtain ⟨hsource, hlow, hother, -⟩ := addOwn_spec x (bookedVolume p) w
  rw [← ha, source_congr hwsrc] at hsource hlow
  rw [← ha] at hother
  have hwrote : Wrote s u := by
    have h1 : Wrote s w := by rw [hw]; exact wrote_writeRecord _ s
    have h2 : Wrote w a := by rw [ha]; exact wrote_addOwn x _ w
    exact (h1.trans h2).trans (.of_only hau (by simp) (congrArg _ (hau .journal (by simp))))
  have hcfg : w.cfg = s.cfg := by
    simp only [State.cfg]; rw [show w.config = s.config from hsw .config (by simp)]
  have hdrawn : u.drawn x = a.drawn x :=
    drawn_congr (hau .peers (by simp)) (by rw [source_congr husrc]) (by rw [source_congr husrc])
      (by rw [source_congr husrc])
  refine ⟨?_, ?_, fun y hy => ?_, fun j hj => ?_, ?_, ?_, ?_, hwrote.1, ?_⟩
  · exact ((hau .journal (by simp)).trans (hwa .journal (by simp))).trans hjournal
  · rw [hu]
    show a.pours - 1 = _
    rw [show a.pours = s.pours from (hwa .pours (by simp)).trans (hsw .pours (by simp))]
  · rw [source_congr husrc, hother y hy, source_congr hwsrc]
  · rw [hu]
    exact (line_setLine_ne a _ hj).trans (line_congr hln j)
  · rw [hu, ← line_congr hln]
    exact line_setLine_same a i _
  · rw [source_congr husrc]; exact hsource
  · rw [source_congr husrc, hdrawn, ← hcfg]; exact hlow
  · exact ((hsw.mono (by simp)).trans (hwa.mono (by simp))).trans (hau.mono (by simp))

/-- The completion of a pour (R22): what the list is served from, step by step, and what follows. -/
theorem exec_pourCompletion {s : State} {i : LineNo} {p : PourCtx} (hr : s.rstnLow = false)
    (hs : (s.line i).state = .afterRun) (hp : (s.line i).pour = some p) :
    exec (.pourCompletion i) s = .next (complete i p s) := by
  simp [exec, execPourCompletion, powered, hr, hs, hp]

theorem presentRemembered_spec (i : LineNo) (s : State) :
    match (s.line i).remembered with
    | none => presentRemembered i s = s
    | some k => KeyPresented i k (s.setLine i { s.line i with remembered := none })
        (presentRemembered i s) := by
  cases h : (s.line i).remembered with
  | none => simp [presentRemembered, h]
  | some k =>
    simp only [presentRemembered, h]
    exact request_key i k _

/-! ## The figures of a record -/

theorem pourVolume_eq (k : Nat) (g oq : Int) (beer : Nat) : pourVolume k g oq beer =
    ((if beer = 0 then 0
      else ((4 * (beer : Int) + oq).toNat * (65536 + g).toNat * k + 131072) / 262144) + 50) / 100 := by
  simp only [pourVolume, volumeUnits, volumeMicro, quarterPulses, gainFactor]

theorem creepFields_eq (p : PourCtx) : creepFields p = if p.creep = 0 then none else
    some (p.creep, (((4 * p.creep) * (65536 + p.g).toNat * p.k + 131072) / 262144 + 50) / 100) := by
  have hq : (4 * (p.creep : Int) + 0).toNat = 4 * p.creep := by omega
  by_cases h : p.creep = 0
  · simp only [creepFields, h, if_true]
  · simp only [creepFields, h, if_false, pourVolume_eq, hq]

theorem bookedVolume_eq (p : PourCtx) : bookedVolume p =
    pourVolume p.k p.g p.oq (p.total - p.foam) + (if p.creep = 0 then 0
      else (((4 * p.creep) * (65536 + p.g).toNat * p.k + 131072) / 262144 + 50) / 100) := by
  have e : ((creepFields p).map Prod.snd).getD 0 = if p.creep = 0 then 0
      else (((4 * p.creep) * (65536 + p.g).toNat * p.k + 131072) / 262144 + 50) / 100 := by
    rw [creepFields_eq]
    by_cases h : p.creep = 0
    · rw [if_pos h, if_pos h]; rfl
    · rw [if_neg h, if_neg h, Option.map_some, Option.getD_some]
  rw [bookedVolume, e]

/-- Settles O36: the pour is booked, the line is settled, the list is served, the key is presented. -/
theorem completion : Obligations.Completion := by
  intro s i p r hr hs hp hend l x beer v cv creep locks last reported prepared
  obtain ⟨b, hb⟩ : ∃ b, b = bookPour i p s := ⟨_, rfl⟩
  obtain ⟨hjournal, hpours, hsources, hlines, hbline, hsource, hlow, hattn, honly⟩ := bookPour_spec i p s
  rw [← hb] at hjournal hpours hsources hlines hbline hsource hlow hattn honly
  obtain ⟨u, hu⟩ : ∃ u, u = afterCompletion i p b := ⟨_, rfl⟩
  obtain ⟨huline, huother, huattn, huonly, hlast, hnot⟩ := afterCompletion_spec i p b
  rw [← hu] at huline huother huattn huonly hlast hnot
  have hsta : b.station = s.station := honly .station (by simp)
  have hcln : b.clean = s.clean := honly .clean (by simp)
  have hlnk : b.link = s.link := honly .link (by simp)
  have hmark : (b.line i).cleanMark = l.cleanMark := by rw [hbline]; rfl
  have hlocks : foamLocks p (b.line i) = decide locks := by
    rw [Bool.eq_iff_iff]
    simp [foamLocks, hmark, hend, locks, and_assoc]
  have hprep : LastPrepared b i ↔ prepared := by
    have hsel : b.selected = s.selected := by simp only [State.selected, hcln]
    simp only [LastPrepared, hsta, hmark, hcln, hsel, prepared, reported]
    refine and_congr_right fun _ => and_congr_right fun _ => forall_congr' fun j =>
      forall_congr' fun _ => forall_congr' fun hji => by rw [hlines j hji]
  have hwritten : attnWritten s b = attnWritten s u := by
    have hsrc := fun y => source_congr (huonly .sources (by simp)) y
    simp only [attnWritten, hsrc, show u.journal = b.journal from huonly .journal (by simp)]
  have husrc : u.sources = b.sources := huonly .sources (by simp)
  have hdrawn : u.drawn x = b.drawn x :=
    drawn_congr (huonly .peers (by simp)) (by rw [source_congr husrc]) (by rw [source_congr husrc])
      (by rw [source_congr husrc])
  have hmicro : volumeMicro p.k p.g p.oq (p.total - p.foam) = v := by
    simp only [volumeMicro, quarterPulses, gainFactor, v, beer]
  have hvol : pourVolume p.k p.g p.oq (p.total - p.foam) = (v + 50) / 100 := by
    rw [pourVolume, hmicro, volumeUnits]
  have hbooked : bookedVolume p = (v + 50) / 100 + (if p.creep = 0 then 0 else (cv + 50) / 100) := by
    rw [bookedVolume_eq, hvol]
  have hrecord : pourRecord i x (s.source x).gen p s.journal.seq = .pour
      { seq := s.journal.seq, start := p.start, duration := p.duration.getD 0, line := i,
        source := x, gen := (s.source x).gen, mode := p.mode, tag := p.tag, target := p.target,
        total := p.total, foam := p.foam, volume := (v + 50) / 100, endReason := r, creep } := by
    simp only [pourRecord, hend, creepFields_eq, hvol, Option.getD_some, creep, cv, x]
  have hlastPour : lastPourOf p = last := by
    simp only [lastPourOf, hend, hmicro, volumeUnits, Option.getD_some, last, beer]
  refine ⟨u, presentRemembered i (serve u), ?_, ?_, ?_, ?_, ?_, ?_, ?_, ?_, ?_, ?_, ?_, ?_, ?_⟩
  · rw [exec_pourCompletion hr hs hp, complete_eq, ← hb, ← hu]
  · exact (honly.mono (by simp)).trans (huonly.mono (by simp))
  · rw [show u.journal = b.journal from huonly .journal (by simp), hjournal, hrecord]
  · exact (huonly .pours (by simp)).trans hpours
  · exact fun y hy => (source_congr husrc y).trans (hsources y hy)
  · exact hlines.trans huother
  · rw [source_congr husrc, hsource, hbooked]
  · rw [source_congr husrc, hdrawn]; exact hlow
  · rw [huattn, hattn, hwritten, hlocks]; rfl
  · rw [hlocks, hbline] at huline
    simpa only [completedState, hsta, bookedLine, hlastPour, decide_eq_true_eq] using huline
  · intro h
    obtain ⟨hclean, hreq⟩ := hlast (hprep.mpr h)
    refine ⟨by rw [hclean, hcln], fun hne => StatusRequested.of_link (hreq ?_) hlnk⟩
    rwa [hsta]
  · intro h
    obtain ⟨hclean, hlink⟩ := hnot (hprep.not.mpr h)
    exact ⟨hclean.trans hcln, hlink.trans hlnk⟩
  · have h := presentRemembered_spec i (serve u)
    cases hk : ((serve u).line i).remembered <;> rw [hk] at h <;> exact h

end Sys2Proof.Machine

/-! SUPPORT. The records of a run end and the volumes they draw (R73, R75, R82, R182 step 3). -/

namespace Sys2Proof.Machine

/-! ## Volumes drawn by several records -/

theorem wasteVolumes_append (x : SourceNo) (rs rs' : List Record) :
    wasteVolumes x (rs ++ rs') = wasteVolumes x rs ++ wasteVolumes x rs' :=
  List.filterMap_append

/-- Sources that stand have nothing drawn from them. -/
theorem Drew.nil {s t : State} (h : t.sources = s.sources) : Drew [] s t := by
  intro x
  simp [wasteVolumes, source_congr h x]

/-- A CLEAN record draws nothing. -/
theorem drew_append_clean {rs : List Record} {s t : State} (c : CleanRecord) :
    Drew (rs ++ [.clean c]) s t ↔ Drew rs s t := by
  have h : ∀ x, wasteVolumes x (rs ++ [.clean c]) = wasteVolumes x rs := by
    intro x; simp [wasteVolumes]
  simp only [Drew, h]

/-- What is drawn reads the sources, the peers and the low thresholds alone. -/
theorem Drew.congr {rs : List Record} {s s' t t' : State} (h : Drew rs s t)
    (hs : s'.sources = s.sources) (hc : s'.config = s.config) (ht : t'.sources = t.sources)
    (hp : t'.peers = t.peers) : Drew rs s' t' := by
  intro x
  obtain ⟨hsource, hlow⟩ := h x
  have hthr : s'.cfg = s.cfg := by simp only [State.cfg, hc]
  have hd : t'.drawn x = t.drawn x :=
    drawn_congr hp (by rw [source_congr ht]) (by rw [source_congr ht]) (by rw [source_congr ht])
  rw [source_congr hs, source_congr ht, hthr, hd]
  exact ⟨hsource, hlow⟩

/-- One source, drawn from twice: the sums saturate as one, and the last low test decides. -/
theorem Drew.append {rs rs' : List Record} {s t u : State} (h : Drew rs s t) (h' : Drew rs' t u)
    (hc : t.config = s.config) (hp : u.peers = t.peers) : Drew (rs ++ rs') s u := by
  intro x
  obtain ⟨hsource, hlow⟩ := h x
  obtain ⟨hsource', hlow'⟩ := h' x
  have hthr : t.cfg = s.cfg := by simp only [State.cfg, hc]
  have hgen : (u.source x).gen = (t.source x).gen := by rw [hsource']
  have hcarry : (u.source x).carry = (t.source x).carry := by rw [hsource']
  have hpeer : u.peerDraw x = t.peerDraw x := by
    simp only [State.peerDraw, State.peerList, hp, hgen]
  have hown := congrArg SourceRec.own hsource
  have hown' := congrArg SourceRec.own hsource'
  have hfull : (t.source x).full = (s.source x).full := by rw [hsource]
  simp only at hown hown'
  simp only [wasteVolumes_append, List.append_eq_nil_iff, List.sum_append]
  have hdrawn : u.drawn x = (u.source x).own + (t.source x).carry + t.peerDraw x := by
    rw [State.drawn, hpeer, hcarry]
  rw [hthr, hfull] at hlow'
  constructor
  · rw [hsource', hsource]
    simp only [SourceRec.mk.injEq, true_and]
    refine ⟨?_, trivial⟩
    by_cases hv : wasteVolumes x rs = [] <;> by_cases hv' : wasteVolumes x rs' = [] <;>
      simp [hv, hv'] <;> omega
  · rw [hlow', hlow]
    by_cases hv : wasteVolumes x rs = []
    · simp [hv]
    by_cases hv' : wasteVolumes x rs' = []
    · have hsame : u.drawn x = t.drawn x := by
        rw [hdrawn, State.drawn, hown', if_pos hv']
      simp [hv', hsame]
    · -- own cumulative does not fall once it has been drawn to, so a LOW found earlier is found again
      have hle : t.drawn x ≤ u.drawn x := by
        rw [hdrawn, State.drawn, hown', if_neg hv', hown, if_neg hv]
        omega
      have hrem : (s.source x).full - t.drawn x ≤ s.cfg.lowThreshold[x] →
          (s.source x).full - u.drawn x ≤ s.cfg.lowThreshold[x] :=
        fun h => (Nat.sub_le_sub_left hle _).trans h
      constructor
      · rintro ((h | ⟨-, hf, hr⟩) | ⟨-, hf, hr⟩)
        · exact .inl h
        · exact .inr ⟨fun h => hv (List.append_eq_nil_iff.mp h).1, hf, hrem hr⟩
        · exact .inr ⟨fun h => hv (List.append_eq_nil_iff.mp h).1, hf, hr⟩
      · rintro (h | ⟨-, hf, hr⟩)
        · exact .inl (.inl h)
        · exact .inr ⟨hv', hf, hr⟩

/-! ## The WASTE records, line by line -/

/-- The pulses of a line's WASTE record (R73). -/
def wastePulses (s : State) (i : LineNo) : Nat := s.clean.beerOut[i] + (s.line i).creep

/-- The WASTE record of a line, with its sequence number (R73). -/
def wasteRecord (s : State) (j : Job) (i : LineNo) (seq : BitVec 16) : Record :=
  let c := s.lineCfg i
  .waste { seq, start := j.start, line := i, source := c.source, gen := (s.source c.source).gen,
           pulses := wastePulses s i, volume := pourVolume c.k c.g 0 (wastePulses s i),
           run := s.clean.runNumber }

/-- The WASTE records of some lines, the first of them the nth after the sequence number (R75). -/
def wasteFrom (s : State) (j : Job) : Nat → List LineNo → List Record
  | _, [] => []
  | n, i :: is =>
    if wastePulses s i = 0 then wasteFrom s j n is
    else wasteRecord s j i (s.journal.seq + BitVec.ofNat 16 n) :: wasteFrom s j (n + 1) is

/-- The WASTE records of a run end, taken line by line. -/
theorem wasteRecords_eq (s : State) (j : Job) :
    wasteRecords s j = wasteFrom s j 0 (linesOf j.lines) := by
  have h : ∀ is n, (((is.filter fun i => 0 < s.clean.beerOut[i] + (s.line i).creep).zipIdx n).map
      fun e => wasteRecord s j e.1 (s.journal.seq + BitVec.ofNat 16 e.2)) = wasteFrom s j n is := by
    intro is
    induction is with
    | nil => intro n; rfl
    | cons i is ih =>
      intro n
      by_cases hi : wastePulses s i = 0
      · have hf : ¬ 0 < s.clean.beerOut[i] + (s.line i).creep := by
          rw [wastePulses] at hi; omega
        rw [wasteFrom, if_pos hi, List.filter_cons_of_neg (by simpa using hf), ih]
      · have hf : 0 < s.clean.beerOut[i] + (s.line i).creep := by
          rw [wastePulses] at hi; omega
        rw [wasteFrom, if_neg hi, List.filter_cons_of_pos (by simpa using hf), List.zipIdx_cons,
          List.map_cons, ih]
  exact h (linesOf j.lines) 0

/-- One line at most gives one record. -/
theorem wasteFrom_length (s : State) (j : Job) (n : Nat) (is : List LineNo) :
    (wasteFrom s j n is).length ≤ is.length := by
  induction is generalizing n with
  | nil => simp [wasteFrom]
  | cons i is ih =>
    rw [wasteFrom]
    split
    · exact (ih n).trans (by simp)
    · simpa using ih (n + 1)

theorem wasteFrom_cons (s : State) (j : Job) (n : Nat) (i : LineNo) (is : List LineNo) :
    wasteFrom s j n (i :: is) =
      wasteFrom s j n [i] ++ wasteFrom s j (n + (wasteFrom s j n [i]).length) is := by
  by_cases h : wastePulses s i = 0 <;> simp [wasteFrom, h]

/-- What the WASTE records read: the sequence number, beer-out counts and run number, the configuration,
generations, and the creep counts of their lines. -/
theorem wasteFrom_congr {s t : State} {j : Job} {k : Nat} (hseq : t.journal.seq =
      s.journal.seq + BitVec.ofNat 16 k) (hbeer : t.clean.beerOut = s.clean.beerOut)
    (hrun : t.clean.runNumber = s.clean.runNumber) (hcfg : t.config = s.config)
    (hgen : ∀ x, (t.source x).gen = (s.source x).gen) {is : List LineNo}
    (hcreep : ∀ i ∈ is, (t.line i).creep = (s.line i).creep) (n : Nat) :
    wasteFrom t j n is = wasteFrom s j (k + n) is := by
  induction is generalizing n with
  | nil => rfl
  | cons i is ih =>
    have hpulses : wastePulses t i = wastePulses s i := by
      rw [wastePulses, wastePulses, hbeer, hcreep i (by simp)]
    have hrec : wasteRecord t j i (t.journal.seq + BitVec.ofNat 16 n) =
        wasteRecord s j i (s.journal.seq + BitVec.ofNat 16 (k + n)) := by
      simp only [wasteRecord, hpulses, hrun, lineCfg_congr hcfg, hgen, hseq, BitVec.ofNat_add,
        BitVec.add_assoc]
    have ih' := ih fun i hi => hcreep i (by simp [hi])
    rw [wasteFrom, wasteFrom, hpulses, hrec, ih', ih', Nat.add_assoc]

/-! ## A record written by the run -/

theorem writeRunRecord_spec (mk : BitVec 16 → Record) (s : State) :
    (writeRunRecord mk s).journal =
      ⟨s.journal.records ++ [mk s.journal.seq], s.journal.reserved - 1, s.journal.seq + 1⟩ ∧
    (writeRunRecord mk s).clean = { s.clean with slots := s.clean.slots - 1 } ∧
    Wrote s (writeRunRecord mk s) ∧ Only [.journal, .attn, .clean] s (writeRunRecord mk s) := by
  obtain ⟨hjournal, -, honly⟩ := writeRecord_spec mk s
  have h2 := modClean_only (fun c => { c with slots := c.slots - 1 }) (writeRecord mk s)
  have hclean : (writeRecord mk s).clean = s.clean := honly .clean (by simp)
  refine ⟨hjournal, ?_, (wrote_writeRecord mk s).trans (.of_only h2 (by simp) rfl),
    (honly.mono (by simp)).trans (h2.mono (by simp))⟩
  show { (writeRecord mk s).clean with slots := (writeRecord mk s).clean.slots - 1 } = _
  rw [hclean]

/-- What the writing of records does: they join the tail with their numbers, spend slots of the run, draw
their volumes and set the attention flags (R69, R70, R76, R82). -/
def WroteRun (rs : List Record) (s t : State) : Prop :=
  t.journal = ⟨s.journal.records ++ rs, s.journal.reserved - rs.length,
    s.journal.seq + BitVec.ofNat 16 rs.length⟩ ∧
  t.clean = { s.clean with slots := s.clean.slots - rs.length } ∧
  Drew rs s t ∧ Wrote s t ∧ Only [.lines, .journal, .sources, .attn, .clean] s t

theorem WroteRun.refl (s : State) : WroteRun [] s s :=
  ⟨by simp, rfl, Drew.nil rfl, Wrote.refl s, Only.refl _ s⟩

theorem WroteRun.append {rs rs' : List Record} {s t u : State} (h : WroteRun rs s t)
    (h' : WroteRun rs' t u) : WroteRun (rs ++ rs') s u := by
  obtain ⟨hj, hc, hd, hw, ho⟩ := h
  obtain ⟨hj', hc', hd', hw', ho'⟩ := h'
  refine ⟨?_, ?_, hd.append hd' (ho .config (by simp)) (ho' .peers (by simp)), hw.trans hw',
    ho.trans ho'⟩
  · rw [hj', hj]
    simp [Nat.sub_sub, BitVec.add_assoc, BitVec.ofNat_add]
  · rw [hc', hc]
    simp [Nat.sub_sub]

/-- A CLEAN record joins the records of the run (R74). -/
theorem wroteRun_clean (c : BitVec 16 → CleanRecord) (s : State) :
    WroteRun [.clean (c s.journal.seq)] s (writeRunRecord (fun seq => .clean (c seq)) s) := by
  obtain ⟨hj, hc, hw, ho⟩ := writeRunRecord_spec (fun seq => .clean (c seq)) s
  exact ⟨hj, hc, (drew_append_clean (rs := []) _).mpr (Drew.nil (ho .sources (by simp))), hw,
    ho.mono (by simp)⟩

/-- A WASTE record draws its volume from its source alone. -/
theorem drew_waste {s t : State} {j : Job} {i : LineNo} {seq : BitVec 16}
    (hs : (t.source (s.lineCfg i).source) = { s.source (s.lineCfg i).source with
      own := min ((s.source (s.lineCfg i).source).own +
        pourVolume (s.lineCfg i).k (s.lineCfg i).g 0 (wastePulses s i)) 4294967295,
      low := (t.source (s.lineCfg i).source).low })
    (hlow : (t.source (s.lineCfg i).source).low = true ↔ (s.source (s.lineCfg i).source).low = true ∨
      ((s.source (s.lineCfg i).source).full ≠ 0 ∧
        (s.source (s.lineCfg i).source).full - t.drawn (s.lineCfg i).source ≤
          s.cfg.lowThreshold[(s.lineCfg i).source]))
    (ho : OtherSources (s.lineCfg i).source s t) : Drew [wasteRecord s j i seq] s t := by
  intro y
  by_cases h : y = (s.lineCfg i).source
  · subst h
    have hv : wasteVolumes (s.lineCfg i).source [wasteRecord s j i seq] =
        [pourVolume (s.lineCfg i).k (s.lineCfg i).g 0 (wastePulses s i)] := by
      simp [wasteVolumes, wasteRecord]
    simp only [hv]
    exact ⟨by simpa using hs, by simpa using hlow⟩
  · have hv : wasteVolumes y [wasteRecord s j i seq] = [] := by
      simp [wasteVolumes, wasteRecord, Ne.symm h]
    simp [hv, ho y h]

/-- A line's WASTE record, where it has one, joins the records of the run and clears the creep count
(R73, R82). -/
theorem wasteLine_spec (j : Job) (i : LineNo) (s : State) :
    WroteRun (wasteFrom s j 0 [i]) s (wasteLine j i s) ∧
      (wasteLine j i s).line i = { s.line i with creep := 0 } ∧ OtherLines i s (wasteLine j i s) := by
  by_cases h : wastePulses s i = 0
  · have e : wasteLine j i s = s := by
      rw [wasteLine, if_pos (show s.clean.beerOut[i] + (s.line i).creep = 0 from h)]
    have hc : (s.line i).creep = 0 := by rw [wastePulses] at h; omega
    rw [e, wasteFrom, if_pos h]
    exact ⟨WroteRun.refl s, by rw [← hc], OtherLines.refl i s⟩
  · obtain ⟨w, hw⟩ : ∃ w, w = writeRunRecord (wasteRecord s j i) s := ⟨_, rfl⟩
    obtain ⟨v, hv⟩ : ∃ v, v = w.setLine i { w.line i with creep := 0 } := ⟨_, rfl⟩
    have e : wasteLine j i s = addOwn (s.lineCfg i).source
        (pourVolume (s.lineCfg i).k (s.lineCfg i).g 0 (wastePulses s i)) v := by
      rw [hv, hw, wasteLine, if_neg (show ¬ s.clean.beerOut[i] + (s.line i).creep = 0 from h)]
      rfl
    obtain ⟨hj, hc, hwr, ho⟩ := writeRunRecord_spec (wasteRecord s j i) s
    rw [← hw] at hj hc hwr ho
    have hov : Only [.lines] w v := by rw [hv]; exact setLine_only w i _
    have hsrc : v.sources = s.sources := (hov .sources (by simp)).trans (ho .sources (by simp))
    have hcfg : v.cfg = s.cfg := by
      simp only [State.cfg]
      rw [show v.config = s.config from (hov .config (by simp)).trans (ho .config (by simp))]
    have hln : w.lines = s.lines := ho .lines (by simp)
    obtain ⟨hsource, hlow, hother, -⟩ := addOwn_spec (s.lineCfg i).source
      (pourVolume (s.lineCfg i).k (s.lineCfg i).g 0 (wastePulses s i)) v
    have hfr := addOwn_only (s.lineCfg i).source
      (pourVolume (s.lineCfg i).k (s.lineCfg i).g 0 (wastePulses s i)) v
    have hwrote := wrote_addOwn (s.lineCfg i).source
      (pourVolume (s.lineCfg i).k (s.lineCfg i).g 0 (wastePulses s i)) v
    rw [← e] at hsource hlow hother hfr hwrote
    rw [source_congr hsrc, hcfg] at hlow
    rw [source_congr hsrc] at hsource
    have hlines : (wasteLine j i s).lines = v.lines := hfr .lines (by simp)
    have hrs : wasteFrom s j 0 [i] = [wasteRecord s j i s.journal.seq] := by
      rw [wasteFrom, if_neg h, wasteFrom]; simp
    rw [hrs]
    refine ⟨⟨?_, ?_, drew_waste hsource hlow fun y hy => ?_, ?_, ?_⟩, ?_, fun k hk => ?_⟩
    · exact ((hfr .journal (by simp)).trans (hov .journal (by simp))).trans hj
    · exact ((hfr .clean (by simp)).trans (hov .clean (by simp))).trans hc
    · rw [hother y hy, source_congr hsrc]
    · exact (hwr.trans (.of_only hov (by simp) (congrArg _ (hov .journal (by simp))))).trans hwrote
    · exact ((ho.mono (by simp)).trans (hov.mono (by simp))).trans (hfr.mono (by simp))
    · rw [line_congr hlines, hv, line_setLine_same, line_congr hln]
    · rw [line_congr hlines, hv, line_setLine_ne w _ hk, line_congr hln]

/-- The WASTE records of several lines, in order (R75). -/
theorem overLines_wasteLine (j : Job) {is : List LineNo} (hn : is.Nodup) (s : State) :
    WroteRun (wasteFrom s j 0 is) s (overLines (wasteLine j) is s) ∧
      (∀ i ∈ is, (overLines (wasteLine j) is s).line i = { s.line i with creep := 0 }) ∧
      ∀ i, i ∉ is → (overLines (wasteLine j) is s).line i = s.line i := by
  induction is generalizing s with
  | nil => exact ⟨WroteRun.refl s, by simp, fun _ _ => rfl⟩
  | cons i rest ih =>
    obtain ⟨hi, hrest⟩ := List.nodup_cons.mp hn
    obtain ⟨hwrote, hline, hother⟩ := wasteLine_spec j i s
    obtain ⟨hwrote', hin, hout⟩ := ih hrest (wasteLine j i s)
    have ⟨hj, hc, hd, _, ho⟩ := hwrote
    have hne : ∀ k ∈ rest, k ≠ i := fun k hk e => hi (e ▸ hk)
    have hfrom : wasteFrom (wasteLine j i s) j 0 rest =
        wasteFrom s j ((wasteFrom s j 0 [i]).length) rest := by
      rw [wasteFrom_congr (k := (wasteFrom s j 0 [i]).length) (by rw [hj]) (by rw [hc]) (by rw [hc])
        (ho .config (by simp)) (fun x => by rw [(hd x).1])
        (fun k hk => by rw [hother k (hne k hk)]), Nat.add_zero]
    rw [overLines_cons, wasteFrom_cons, Nat.zero_add, ← hfrom]
    refine ⟨hwrote.append hwrote', fun k hk => ?_, fun k hk => ?_⟩
    · rcases List.mem_cons.mp hk with rfl | hk
      · rw [hout k hi, hline]
      · rw [hin k hk, hother k (hne k hk)]
    · obtain ⟨hki, hkr⟩ := not_or.mp fun h => hk (List.mem_cons.mpr h)
      rw [hout k hkr, hother k hki]

end Sys2Proof.Machine

/-! SUPPORT. The end of a run whose list is empty (R182 to R184, R186). -/

namespace Sys2Proof.Machine

/-! ## The parts of a run end -/

/-- Requests for a STATUS one after another are one request. -/
theorem StatusRequested.trans {s t u : State} (h : StatusRequested s t) (h' : StatusRequested t u) :
    StatusRequested s u := by
  unfold StatusRequested at h h' ⊢
  cases hm : s.link.mute with
  | true =>
    rw [hm, if_pos rfl] at h
    rw [h, hm, if_pos rfl] at h'
    rw [h', if_pos rfl]
  | false =>
    rw [hm, if_neg Bool.false_ne_true] at h
    have hm' : t.link.mute = false := by rw [h]; exact hm
    rw [hm', if_neg Bool.false_ne_true, h] at h'
    rw [h', if_neg Bool.false_ne_true]
    cases s.link.current <;> rfl

/-- A request whose link stands afterwards. -/
theorem StatusRequested.of_only {s t u : State} {ps : List Part} (h : StatusRequested s t)
    (hu : Only ps t u) (hps : Part.link ∉ ps) : StatusRequested s u := by
  unfold StatusRequested at h ⊢
  rw [← h]
  exact hu .link hps

/-- The valves of the selected lines close (R182 step 1). -/
theorem applyFaucets_off (s : State) :
    (∀ i ∈ s.selected, (applyFaucets false s).line i = { s.line i with valve := .closed }) ∧
      (∀ i, i ∉ s.selected → (applyFaucets false s).line i = s.line i) ∧
      Only [.lines] s (applyFaucets false s) := by
  have hf : ∀ i s, OtherLines i s (setValve i .closed s) := fun i s => setLine_others s i _
  have hps : ∀ i s, Only [.lines] s (setValve i .closed s) := fun i s => setLine_only s i _
  have hn : s.selected.Nodup := by
    unfold State.selected
    split
    · exact linesOf_nodup _
    · exact List.nodup_nil
  have e : applyFaucets false s = overLines (fun i => setValve i .closed) s.selected s := rfl
  rw [e]
  refine ⟨fun i hi => ?_, fun i hi => overLines_others hf _ s i hi, overLines_only hps _ s⟩
  obtain ⟨u, -, hline, hend, -⟩ := overLines_at hf hps hn hi s
  rw [hend, setValve, line_setLine_same, hline]

/-- The slots that a run holds are returned; an empty list is served without effect (R67, R78). -/
theorem returnSlots_quiet {s : State} (h : s.starts = []) :
    returnSlots s = modClean (fun c => { c with slots := 0 })
      { s with journal := { s.journal with reserved := s.journal.reserved - s.clean.slots } } := by
  simp only [returnSlots]
  split
  · exact serve_nil h
  · rfl

/-- A selected line is released LOCKED for CLEAN-INCOMPLETE, or OFF outside RUNNING (R184). -/
theorem releaseLine_incomplete (i : LineNo) (s : State) :
    LineBecomes (releaseLine true i s) i { s.line i with
        lock := .cleanIncomplete, state := if s.station ≠ .running then .off else .locked } ∧
      OtherLines i s (releaseLine true i s) ∧
      (releaseLine true i s).attn = s.attn.set .lineLocked ∧
      Only [.lines, .attn] s (releaseLine true i s) := by
  obtain ⟨hlock, hother, hattn, honly⟩ := setLock_spec i .cleanIncomplete s
  obtain ⟨hset, hother', honly'⟩ := setState_spec i (if s.station = .running then .locked else .off)
    (setLock i .cleanIncomplete s)
  have e : releaseLine true i s = setState i (if s.station = .running then .locked else .off)
      (setLock i .cleanIncomplete s) := by simp [releaseLine]
  rw [hlock] at hset
  rw [e, ite_not]
  exact ⟨hset, hother.trans hother', (honly' .attn (by simp)).trans hattn,
    honly.trans (honly'.mono (by simp))⟩

/-- A selected line is released READY without a lock reason, or OFF outside RUNNING (R27). -/
theorem releaseLine_complete (i : LineNo) (s : State) :
    LineBecomes (releaseLine false i s) i { s.line i with
        lock := .clear, state := if s.station ≠ .running then .off else .ready } ∧
      OtherLines i s (releaseLine false i s) ∧ Only [.lines] s (releaseLine false i s) := by
  obtain ⟨hset, hother', honly'⟩ := setState_spec i (if s.station = .running then .ready else .off)
    (s.setLine i { s.line i with lock := .clear })
  have e : releaseLine false i s = setState i (if s.station = .running then .ready else .off)
      (s.setLine i { s.line i with lock := .clear }) := by simp [releaseLine]
  rw [line_setLine_same] at hset
  rw [e, ite_not]
  exact ⟨hset, (setLine_others s i _).trans hother', honly'.of_setLine (by simp)⟩

/-- The line of a run that ends from RUNNING (R182, R184). -/
def releasedLine (s : State) (failed : Bool) (l : Line) : Line :=
  { l with
    lock := if failed then .cleanIncomplete else .clear,
    state := if s.station ≠ .running then .off else if failed then .locked else .ready }

theorem releaseLine_spec (failed : Bool) (i : LineNo) (s : State) :
    LineBecomes (releaseLine failed i s) i (releasedLine s failed (s.line i)) ∧
      OtherLines i s (releaseLine failed i s) ∧
      (releaseLine failed i s).attn = { s.attn with lineLocked := s.attn.lineLocked || failed } ∧
      Only [.lines, .attn] s (releaseLine failed i s) := by
  cases failed with
  | true =>
    obtain ⟨hline, hother, hattn, honly⟩ := releaseLine_incomplete i s
    refine ⟨by simpa [releasedLine] using hline, hother, ?_, honly⟩
    rw [hattn, ← set_lineLocked_if, if_pos rfl]
  | false =>
    obtain ⟨hline, hother, honly⟩ := releaseLine_complete i s
    refine ⟨by simpa [releasedLine] using hline, hother, ?_, honly.mono (by simp)⟩
    rw [← set_lineLocked_if, if_neg (by simp)]
    exact honly .attn (by simp)

/-- The selected lines are released (R182 step 4). -/
theorem overLines_releaseLine (failed : Bool) {is : List LineNo} (hn : is.Nodup) (s : State) :
    (∀ i ∈ is, LineBecomes (overLines (releaseLine failed) is s) i (releasedLine s failed (s.line i))) ∧
      (∀ i, i ∉ is → (overLines (releaseLine failed) is s).line i = s.line i) ∧
      (overLines (releaseLine failed) is s).attn =
        { s.attn with lineLocked := s.attn.lineLocked || (failed && !is.isEmpty) } ∧
      Only [.lines, .attn] s (overLines (releaseLine failed) is s) := by
  have hf : ∀ i s, OtherLines i s (releaseLine failed i s) := fun i s => (releaseLine_spec failed i s).2.1
  have hps : ∀ i s, Only [.lines, .attn] s (releaseLine failed i s) :=
    fun i s => (releaseLine_spec failed i s).2.2.2
  refine ⟨fun i hi => overLines_becomes hf hps (by simp) hn hi fun u hu hline => ?_,
    fun i hi => overLines_others hf is s i hi, ?_, overLines_only hps is s⟩
  · have h := (releaseLine_spec failed i u).1
    rwa [hline, releasedLine, show u.station = s.station from hu .station (by simp)] at h
  · clear hn
    induction is generalizing s with
    | nil => simp
    | cons i rest ih =>
      rw [overLines_cons, ih, (releaseLine_spec failed i s).2.2.1]
      cases failed <;> cases rest <;> simp

/-! ## A run that ends from RUNNING -/

/-- The outputs of the run go off, cool-off with them, and its valves close (R182 step 1). -/
def runOff (s : State) : State :=
  endCoolOff (applyFaucets false
    (modClean (fun c => { c with progress := none, flowFrom := none, out := .none }) s))

theorem runOff_spec (s : State) :
    (runOff s).clean = { s.clean with progress := none, flowFrom := none, out := .none } ∧
      (runOff s).cool = { s.cool with coolOff := false } ∧
      (∀ i ∈ s.selected, (runOff s).line i = { s.line i with valve := .closed }) ∧
      (∀ i, i ∉ s.selected → (runOff s).line i = s.line i) ∧
      Only [.lines, .clean, .cool] s (runOff s) := by
  obtain ⟨u, hu⟩ : ∃ u, u = modClean (fun c => { c with
    progress := none, flowFrom := none, out := .none }) s := ⟨_, rfl⟩
  obtain ⟨v, hv⟩ : ∃ v, v = applyFaucets false u := ⟨_, rfl⟩
  have e : runOff s = { v with cool := { v.cool with coolOff := false } } := by rw [hv, hu]; rfl
  have hsel : u.selected = s.selected := by rw [hu]; rfl
  have hsu : Only [.clean] s u := by rw [hu]; exact modClean_only _ s
  obtain ⟨hin, hout, huv⟩ := applyFaucets_off u
  rw [← hv] at hin hout huv
  rw [hsel] at hin hout
  have hve : Only [.cool] v (runOff s) := by
    rw [e]; intro p hp; cases p <;> simp_all [Part.same]
  have hln := fun i => line_congr (s := v) (t := runOff s) (by rw [e]) i
  have hlu := fun i => line_congr (s := s) (t := u) (by rw [hu]; rfl) i
  have hcool : v.cool = s.cool := (huv .cool (by simp)).trans (hsu .cool (by simp))
  refine ⟨?_, ?_, fun i hi => ?_, fun i hi => ?_, ?_⟩
  · rw [show (runOff s).clean = v.clean by rw [e], show v.clean = u.clean from huv .clean (by simp), hu]
    rfl
  · rw [e, ← hcool]
  · rw [hln, hin i hi, hlu]
  · rw [hln, hout i hi, hlu]
  · exact ((hsu.mono (by simp)).trans (huv.mono (by simp))).trans (hve.mono (by simp))

/-- The records of a run that ends from RUNNING are written (R182 steps 2 and 3). -/
def runWritten (result : RunResult) (j : Job) (p : Progress) (s : State) : State :=
  writeClean j result (some p.step) (overLines (wasteLine j) (linesOf j.lines) (runOff s))

theorem cleanRecord_congr {s t : State} (j : Job) (seq : BitVec 16) (result : RunResult)
    (last : Option Nat) (hs : t.seconds = s.seconds) (hr : t.clean.runNumber = s.clean.runNumber) :
    cleanRecord t j seq result last = cleanRecord s j seq result last := by
  simp only [cleanRecord, hs, hr]

theorem writeClean_spec (j : Job) (result : RunResult) (last : Option Nat) (s : State) :
    WroteRun [cleanRecord s j s.journal.seq result last] s (writeClean j result last s) ∧
      Only [.journal, .attn, .clean] s (writeClean j result last s) :=
  ⟨wroteRun_clean (fun seq => ⟨seq, j.start, sat max16 (s.seconds - j.start).toNat, s.clean.runNumber,
    j.entry, j.lines, result, last⟩) s, (writeRunRecord_spec _ s).2.2.2⟩

/-- A run end writes its WASTE records and its CLEAN record, and leaves every line but the selected, whose
valves are closed and whose creep counts are cleared. -/
theorem runWritten_spec (result : RunResult) {j : Job} (p : Progress) {s : State}
    (hjob : s.clean.job = some j) :
    WroteRun (runRecords s j result p.step) (runOff s) (runWritten result j p s) ∧
      (∀ i ∈ linesOf j.lines,
        (runWritten result j p s).line i = { s.line i with valve := .closed, creep := 0 }) ∧
      ∀ i, i ∉ linesOf j.lines → (runWritten result j p s).line i = s.line i := by
  obtain ⟨hclean, -, hin, hout, hoff⟩ := runOff_spec s
  have hsel : s.selected = linesOf j.lines := by simp only [State.selected, hjob]
  rw [hsel] at hin hout
  obtain ⟨hwaste, hwin, hwout⟩ := overLines_wasteLine j (linesOf_nodup j.lines) (runOff s)
  obtain ⟨w, hw⟩ : ∃ w, w = overLines (wasteLine j) (linesOf j.lines) (runOff s) := ⟨_, rfl⟩
  rw [← hw] at hwaste hwin hwout
  have ⟨hj, hc, _, _, ho⟩ := hwaste
  obtain ⟨hrec, hfr⟩ := writeClean_spec j result (some p.step) w
  have hfrom : wasteFrom (runOff s) j 0 (linesOf j.lines) = wasteRecords s j := by
    rw [wasteRecords_eq]
    refine wasteFrom_congr (k := 0) ?_ (by rw [hclean]) (by rw [hclean]) (hoff .config (by simp))
      (fun x => by rw [source_congr (hoff .sources (by simp))]) (fun i hi => by rw [hin i hi]) 0
    rw [show (runOff s).journal = s.journal from hoff .journal (by simp)]
    simp
  have hclrec : cleanRecord w j w.journal.seq result (some p.step) = cleanRecord s j
      (s.journal.seq + BitVec.ofNat 16 (wasteRecords s j).length) result (some p.step) := by
    have hsec : w.seconds = s.seconds := (ho .seconds (by simp)).1.trans (hoff .seconds (by simp)).1
    rw [cleanRecord_congr j _ result _ hsec (by rw [hc, hclean]), hj, hfrom,
      show (runOff s).journal = s.journal from hoff .journal (by simp)]
  have e : runWritten result j p s = writeClean j result (some p.step) w := by rw [hw]; rfl
  have hln := fun i => line_congr (hfr .lines (by simp)) i
  rw [e, runRecords, ← hclrec, ← hfrom]
  refine ⟨hwaste.append hrec, fun i hi => ?_, fun i hi => ?_⟩
  · rw [hln, hwin i hi, hin i hi]
  · rw [hln, hwout i hi, hout i hi]

/-- A run that ends from RUNNING has room for its records (R67, R73). -/
theorem runRecords_length (s : State) (j : Job) (result : RunResult) (last : Nat) :
    (runRecords s j result last).length ≤ 1 + (linesOf j.lines).length := by
  have h := wasteFrom_length s j 0 (linesOf j.lines)
  rw [← wasteRecords_eq] at h
  simp only [runRecords, List.length_append, List.length_singleton]
  omega

/-- On an empty list the return of the slots serves nothing (R78). -/
theorem slotsReturned_quiet {s : State} (h : s.starts = []) (written : List Record) :
    slotsReturned s written = { s with journal := runJournal s written } := by
  rw [slotsReturned, servedIf]
  split
  · exact serve_nil h
  · rfl

/-- The journal once the records of a run are written and its slots are returned (R67, R69). -/
theorem returnSlots_journal {s w : State} {rs : List Record} (hj : w.journal =
      ⟨s.journal.records ++ rs, s.journal.reserved - rs.length, s.journal.seq + BitVec.ofNat 16 rs.length⟩)
    (hslots : w.clean.slots = s.clean.slots - rs.length) (hle : rs.length ≤ s.clean.slots)
    (hq : w.starts = []) : (returnSlots w).journal = runJournal s rs := by
  rw [returnSlots_quiet hq]
  show { w.journal with reserved := w.journal.reserved - w.clean.slots } = runJournal s rs
  rw [hj, hslots, runJournal, Journal.mk.injEq]
  exact ⟨rfl, by simp only; omega, rfl⟩

theorem returnSlots_spec {w : State} (hq : w.starts = []) :
    (returnSlots w).clean = { w.clean with slots := 0 } ∧
      (returnSlots w).journal.records = w.journal.records ∧
      Only [.journal, .clean] w (returnSlots w) := by
  rw [returnSlots_quiet hq]
  refine ⟨rfl, rfl, ?_⟩
  intro p hp; cases p <;> simp_all [Part.same]

/-- The figures of the run are cleared, and its end is announced (R182 steps 5 to 7). -/
def runOver (s : State) : State :=
  raise .cleanEnd (requestStatus (goIdle (modClean (fun c => { c with
    beerOut := Vector.replicate 8 0, stepCounts := Vector.replicate 8 0,
    flags := { c.flags with flow := false, volume := false } }) s)))

theorem runOver_spec (s : State) (hs : s.station ≠ .unconfigured) :
    (runOver s).clean = { s.clean with
      beerOut := Vector.replicate 8 0, stepCounts := Vector.replicate 8 0,
      flags := { s.clean.flags with flow := false, volume := false },
      runState := .idle, job := none, age := 0 } ∧
    StatusRequested s (runOver s) ∧ (runOver s).attn = s.attn.set .cleanEnd ∧
    Only [.attn, .link, .clean] s (runOver s) := by
  obtain ⟨u, hu⟩ : ∃ u, u = goIdle (modClean (fun c => { c with
    beerOut := Vector.replicate 8 0, stepCounts := Vector.replicate 8 0,
    flags := { c.flags with flow := false, volume := false } }) s) := ⟨_, rfl⟩
  have hsu : Only [.clean] s u := by
    rw [hu]; exact (modClean_only _ s).trans (modClean_only _ _)
  have hst : u.station ≠ .unconfigured := by
    rw [show u.station = s.station from hsu .station (by simp)]; exact hs
  obtain ⟨hreq, hfr⟩ := requestStatus_spec u hst
  have hra := raise_only .cleanEnd (requestStatus u)
  have e : runOver s = raise .cleanEnd (requestStatus u) := by rw [hu]; rfl
  rw [e]
  refine ⟨?_, ?_, ?_, ?_⟩
  · rw [raise_clean, show (requestStatus u).clean = u.clean from hfr .clean (by simp), hu]; rfl
  · exact (StatusRequested.of_link hreq (hsu .link (by simp))).of_only hra (by simp)
  · rw [raise_attn, show (requestStatus u).attn = u.attn from hfr .attn (by simp),
      show u.attn = s.attn from hsu .attn (by simp)]
  · exact ((hsu.mono (by simp)).trans (hfr.mono (by simp))).trans (hra.mono (by simp))

/-- A run that ends from RUNNING, part by part. -/
theorem endRunning_eq (result : RunResult) {j : Job} {p : Progress} {s : State}
    (hjob : s.clean.job = some j) (hprog : s.clean.progress = some p) : endRunning result s =
      runOver (overLines (releaseLine (result != .completed)) (linesOf j.lines)
        (returnSlots (runWritten result j p s))) := by
  simp only [endRunning, hjob, hprog]
  rfl

/-- A run that ends from RUNNING while no start is pending (R182, R184). -/
theorem endRunning_quiet (result : RunResult) {j : Job} {p : Progress} {s : State}
    (hs : s.station ≠ .unconfigured) (hq : s.starts = []) (hjob : s.clean.job = some j)
    (hprog : s.clean.progress = some p) (hslots : s.clean.slots = 1 + (linesOf j.lines).length) :
    RunEnds result j p s (endRunning result s) := by
  obtain ⟨hoclean, hocool, -, -, hoff⟩ := runOff_spec s
  obtain ⟨hwrote, hwin, hwout⟩ := runWritten_spec result p hjob
  have hle : (runRecords s j result p.step).length ≤ s.clean.slots := by
    rw [hslots]; exact runRecords_length s j result p.step
  rw [endRunning_eq result hjob hprog]
  generalize runWritten result j p s = w at hwrote hwin hwout
  obtain ⟨hwj, hwc, hwd, hww, hwo⟩ := hwrote
  have hwq : w.starts = [] := (hwo .starts (by simp)).trans ((hoff .starts (by simp)).trans hq)
  have hrj : (returnSlots w).journal = runJournal s (runRecords s j result p.step) := by
    refine returnSlots_journal ?_ (by rw [hwc, hoclean]) hle hwq
    rw [hwj, show (runOff s).journal = s.journal from hoff .journal (by simp)]
  obtain ⟨hrc, hrr, hro⟩ := returnSlots_spec hwq
  generalize returnSlots w = v at hrj hrc hrr hro
  have hsv : Only [.lines, .journal, .sources, .attn, .clean, .cool] s v :=
    ((hoff.mono (by simp)).trans (hwo.mono (by simp))).trans (hro.mono (by simp))
  have hvw : Wrote s v := ((Wrote.of_only hoff (by simp) (congrArg _ (hoff .journal (by simp)))).trans
    hww).trans (.of_only hro (by simp) hrr)
  obtain ⟨hlin, hlout, hlattn, hlo⟩ :=
    overLines_releaseLine (result != .completed) (linesOf_nodup j.lines) v
  generalize overLines (releaseLine (result != .completed)) (linesOf j.lines) v = x at hlin hlout hlattn hlo
  have hxst : x.station = s.station := (hlo .station (by simp)).trans (hsv .station (by simp))
  obtain ⟨htc, htreq, htattn, hto⟩ := runOver_spec x (by rw [hxst]; exact hs)
  have hvt : Only [.lines, .attn, .link, .clean] v (runOver x) :=
    (hlo.mono (by simp)).trans (hto.mono (by simp))
  have hst : Only [.lines, .journal, .sources, .attn, .clean, .cool, .link] s (runOver x) :=
    (hsv.mono (by simp)).trans (hvt.mono (by simp))
  have htsrc := fun y => source_congr (hvt .sources (by simp)) y
  have htj : (runOver x).journal = v.journal := hvt .journal (by simp)
  have hwritten : attnWritten s v = attnWritten s (runOver x) := by
    simp only [attnWritten, htsrc, htj]
  have hlines : ∀ i, (runOver x).line i = x.line i := line_congr (hto .lines (by simp))
  have hvl : ∀ i, v.line i = w.line i := line_congr (hro .lines (by simp))
  refine ⟨?_, ?_, ?_, ?_, ?_, fun i hi => ?_, ⟨fun i hi => ?_, ?_, ?_, ?_⟩, hst.mono (by simp)⟩
  · rw [htc, show x.clean = v.clean from hlo .clean (by simp), hrc, hwc, hoclean]
    rfl
  · rw [show (runOver x).cool = v.cool from hvt .cool (by simp),
      show v.cool = w.cool from hro .cool (by simp),
      show w.cool = (runOff s).cool from hwo .cool (by simp), hocool]
  · exact StatusRequested.of_link htreq
      ((hlo .link (by simp)).trans (hsv .link (by simp)))
  · exact hwd.congr (hoff .sources (by simp)).symm (hoff .config (by simp)).symm
      ((hvt .sources (by simp)).trans (hro .sources (by simp)))
      ((hvt .peers (by simp)).trans (hro .peers (by simp)))
  · rw [htattn, hlattn, hvw.1, ← hwritten]
    cases result <;> cases linesOf j.lines <;> simp [Attention.set, attnWritten]
  · have h := (hlin i hi).congr (hlines i) hto (by simp)
    rw [hvl, hwin i hi] at h
    have hsta : v.station = s.station := hsv .station (by simp)
    simpa [releasedLine, hsta] using h
  · rw [slotsReturned_quiet hq, hlines, hlout i hi, hvl, hwout i hi]
    rfl
  · rw [slotsReturned_quiet hq]; exact hst .starts (by simp)
  · rw [slotsReturned_quiet hq]; exact hst .pours (by simp)
  · rw [slotsReturned_quiet hq, htj, hrj]

end Sys2Proof.Machine

/-! SUPPORT. STOP: the list, the pours, the run and the lines, and its statement (R29, R186). -/

namespace Sys2Proof.Machine

/-! ## A run that ends before RUNNING -/

/-- What the early end of a run makes of a selected line (R183 step 1). -/
def withdrawnLine (s : State) (l : Line) : Line :=
  if l.cleanMark then { l with cleanMark := false }
  else if l.state = .reserved then
    { l with state := if s.station = .running then .ready else .off, lock := .clear }
  else l

theorem withdrawOrRelease_spec (i : LineNo) (s : State) :
    ((withdrawOrRelease i s).line i).sansLamp = (withdrawnLine s (s.line i)).sansLamp ∧
      OtherLines i s (withdrawOrRelease i s) ∧ Only [.lines] s (withdrawOrRelease i s) := by
  cases hm : (s.line i).cleanMark with
  | true =>
    have e : withdrawOrRelease i s = s.setLine i { s.line i with cleanMark := false } := by
      simp [withdrawOrRelease, hm]
    rw [e, line_setLine_same, withdrawnLine, if_pos hm]
    exact ⟨rfl, setLine_others s i _, setLine_only s i _⟩
  | false =>
    have hm' : ¬ (s.line i).cleanMark = true := by simp [hm]
    by_cases hr : (s.line i).state = .reserved
    · have e : withdrawOrRelease i s = releaseLine false i s := by
        simp [withdrawOrRelease, hm, hr]
      obtain ⟨hline, hother, honly⟩ := releaseLine_complete i s
      rw [ite_not] at hline
      rw [e]
      refine ⟨?_, hother, honly⟩
      rw [hline.1, withdrawnLine, if_neg hm', if_pos hr]
    · have e : withdrawOrRelease i s = s := by simp [withdrawOrRelease, hm, hr]
      rw [e, withdrawnLine, if_neg hm', if_neg hr]
      exact ⟨rfl, OtherLines.refl i s, Only.refl _ s⟩

/-- The run is over, and says so (R183 steps 3 and 4). -/
def earlyOver (claimed : Bool) (s : State) : State :=
  raise .cleanEnd (if claimed then requestStatus (goIdle s) else goIdle s)

theorem earlyOver_spec (claimed : Bool) (s : State) (hs : s.station ≠ .unconfigured) :
    (earlyOver claimed s).clean = { s.clean with runState := .idle, job := none, age := 0 } ∧
      (claimed = true → StatusRequested s (earlyOver claimed s)) ∧
      (claimed = false → (earlyOver claimed s).link = s.link) ∧
      (earlyOver claimed s).attn = s.attn.set .cleanEnd ∧
      Only [.attn, .link, .clean] s (earlyOver claimed s) := by
  have hg : Only [.clean] s (goIdle s) := modClean_only _ s
  cases claimed with
  | false =>
    exact ⟨rfl, fun h => by simp at h, fun _ => rfl, rfl,
      (hg.mono (by simp)).trans ((raise_only .cleanEnd _).mono (by simp))⟩
  | true =>
    obtain ⟨hreq, hfr⟩ := requestStatus_spec (goIdle s) hs
    have hra := raise_only .cleanEnd (requestStatus (goIdle s))
    refine ⟨hfr .clean (by simp), fun _ => ?_, fun h => by simp at h, ?_, ?_⟩
    · exact (StatusRequested.of_link hreq rfl).of_only hra (by simp)
    · exact congrArg (Attention.set · .cleanEnd) (hfr .attn (by simp))
    · exact (hg.mono (by simp)).trans ((hfr.mono (by simp)).trans (hra.mono (by simp)))

/-- A run that ends from PREPARING or CLAIMING while no start is pending (R183). -/
theorem endEarly_quiet {j : Job} {s : State} (hs : s.station ≠ .unconfigured) (hq : s.starts = [])
    (hjob : s.clean.job = some j) (hslots : 1 ≤ s.clean.slots)
    (hmark : ∀ i ∈ linesOf j.lines, (s.line i).state = .reserved → (s.line i).cleanMark = false) :
    RunWithdrawn j s (endEarly s) := by
  have hf : ∀ i s, OtherLines i s (withdrawOrRelease i s) := fun i s => (withdrawOrRelease_spec i s).2.1
  have hps : ∀ i s, Only [.lines] s (withdrawOrRelease i s) :=
    fun i s => (withdrawOrRelease_spec i s).2.2
  have e : endEarly s = earlyOver (s.clean.runState == .claiming) (returnSlots (writeClean j .aborted
      none (overLines withdrawOrRelease (linesOf j.lines) s))) := by
    simp only [endEarly, hjob]; rfl
  have hin : ∀ i ∈ linesOf j.lines, ((overLines withdrawOrRelease (linesOf j.lines) s).line i).sansLamp =
      (withdrawnLine s (s.line i)).sansLamp := fun i hi =>
    overLines_sansLamp hf hps (linesOf_nodup _) hi fun u hu hline => by
      have hst : u.station = s.station := hu .station (by simp)
      rw [(withdrawOrRelease_spec i u).1, hline, withdrawnLine, withdrawnLine, hst]
  have hout := fun i hi => overLines_others hf (linesOf j.lines) s i hi
  have hsw := overLines_only hps (linesOf j.lines) s
  rw [e]
  generalize overLines withdrawOrRelease (linesOf j.lines) s = w at hin hout hsw
  obtain ⟨⟨hwj, hwc, -, hww, -⟩, hwo⟩ := writeClean_spec j .aborted none w
  have hwseq : w.journal = s.journal := hsw .journal (by simp)
  have hwcl : w.clean = s.clean := hsw .clean (by simp)
  rw [hwseq, cleanRecord_congr j _ .aborted none (hsw .seconds (by simp)).1 (by rw [hwcl])] at hwj
  generalize writeClean j .aborted none w = c at hwj hwc hww hwo
  have hcq : c.starts = [] := (hwo .starts (by simp)).trans ((hsw .starts (by simp)).trans hq)
  have hrj : (returnSlots c).journal = runJournal s [cleanRecord s j s.journal.seq .aborted none] :=
    returnSlots_journal hwj (by rw [hwc, hwcl]; rfl) (by simpa using hslots) hcq
  obtain ⟨hrc, hrr, hro⟩ := returnSlots_spec hcq
  generalize returnSlots c = v at hrj hrc hrr hro
  have hsv : Only [.lines, .journal, .attn, .clean] s v :=
    ((hsw.mono (by simp)).trans (hwo.mono (by simp))).trans (hro.mono (by simp))
  have hvw : Wrote s v := ((Wrote.of_only hsw (by simp) (congrArg _ hwseq)).trans hww).trans
    (.of_only hro (by simp) hrr)
  obtain ⟨htc, htreq, htlink, htattn, hto⟩ := earlyOver_spec (s.clean.runState == .claiming) v
    (by rw [show v.station = s.station from hsv .station (by simp)]; exact hs)
  generalize earlyOver (s.clean.runState == .claiming) v = t at htc htreq htlink htattn hto
  have hst : Only [.lines, .journal, .attn, .clean, .link] s t :=
    (hsv.mono (by simp)).trans (hto.mono (by simp))
  have htsrc := fun y => source_congr (hto .sources (by simp)) y
  have htj : t.journal = v.journal := hto .journal (by simp)
  have hwritten : attnWritten s v = attnWritten s t := by
    simp only [attnWritten, htsrc, htj]
  have hlines : ∀ i, t.line i = w.line i := fun i => ((line_congr (hto .lines (by simp)) i).trans
    (line_congr (hro .lines (by simp)) i)).trans (line_congr (hwo .lines (by simp)) i)
  have hlnk : v.link = s.link := hsv .link (by simp)
  refine ⟨?_, fun h => ?_, fun h => ?_, ?_, fun i hi => ?_, ⟨fun i hi => ?_, ?_, ?_, ?_⟩, hst.mono (by simp)⟩
  · rw [htc, hrc, hwc, hwcl]; rfl
  · exact StatusRequested.of_link (htreq (by simp [h])) hlnk
  · exact (htlink (by simp [h])).trans hlnk
  · rw [htattn, hvw.1, hwritten]; rfl
  · rw [hlines, hin i hi, withdrawnLine]
    by_cases hr : (s.line i).state = .reserved
    · rw [if_neg (by simp [hmark i hi hr]), if_pos hr, if_pos hr]
    · rw [if_neg hr, if_neg hr]
      cases hm : (s.line i).cleanMark with
      | true => rfl
      | false => rw [if_neg Bool.false_ne_true, ← hm]
  · rw [slotsReturned_quiet hq, hlines, hout i hi]; rfl
  · rw [slotsReturned_quiet hq]; exact hst .starts (by simp)
  · rw [slotsReturned_quiet hq]; exact hst .pours (by simp)
  · rw [slotsReturned_quiet hq, htj, hrj]

/-! ## The list and the pours -/

theorem endIfPouring_others (i : LineNo) (reason : EndReason) (s : State) :
    OtherLines i s (endIfPouring i reason s) ∧ Only [.lines] s (endIfPouring i reason s) := by
  by_cases hs : (s.line i).state = .pouring
  · cases hp : (s.line i).pour with
    | none =>
      have e : endIfPouring i reason s = s := by simp [endIfPouring, endPour, hp]
      rw [e]; exact ⟨OtherLines.refl i s, Only.refl _ s⟩
    | some p => exact (endIfPouring_pouring reason hs hp).2
  · rw [endIfPouring_idle reason hs]
    exact ⟨OtherLines.refl i s, Only.refl _ s⟩

/-- The station leaves RUNNING: the list is emptied with refusal, and pours end STOPPED (R29). -/
def closeTower (s : State) : State :=
  overLines (fun i => endIfPouring i .stopped) allLines
    (overLines (fun i => refuseEntry i .off) (s.starts.map StartEntry.line) { s with station := .stopped })

/-- A line that the list and the pours leave alone at STOP. -/
def LineState.quiet (st : LineState) : Prop := st ≠ .waiting ∧ st ≠ .pouring

/-- What the station is once the list is emptied and the pours are ended, the port left out of account. -/
structure TowerClosed (s c : State) : Prop where
  station : c.station = .stopped
  starts : c.starts = []
  quiet : ∀ i, (s.line i).state.quiet → c.line i = s.line i
  waiting : ∀ i, (s.line i).state = .waiting → (c.line i).sansLamp =
    ({ s.line i with state := .off, flashFrom := some s.now } : Line).sansLamp
  pouring : ∀ i p, (s.line i).state = .pouring → (s.line i).pour = some p →
    (c.line i).sansLamp = (endedLine s.now .stopped (s.line i) p).sansLamp
  only : Only [.port, .station, .lines, .starts] s c

theorem closeTower_spec {s : State} (hw : StartsOk s) :
    TowerClosed s (closeTower s) ∧ (closeTower s).port = s.port := by
  obtain ⟨hn, hwait⟩ := hw
  obtain ⟨a, ha⟩ : ∃ a : State, a = { s with station := .stopped } := ⟨_, rfl⟩
  have hsa : Only [.station] s a := by
    intro p hp; subst ha; cases p <;> simp_all [Part.same]
  obtain ⟨hin, hout, hab⟩ := overLines_refuseEntry .off hn a
  have hbs := overLines_refuseEntry_starts .off (s.starts.map StartEntry.line) a
  have e : closeTower s = overLines (fun i => endIfPouring i .stopped) allLines
      (overLines (fun i => refuseEntry i .off) (s.starts.map StartEntry.line) a) := by rw [ha]; rfl
  have hal := fun i => line_congr (hsa .lines (by simp)) i
  have hnow : a.now = s.now := hsa .now (by simp)
  generalize overLines (fun i => refuseEntry i .off) (s.starts.map StartEntry.line) a = b at *
  have hbt := overLines_only (fun i s => (endIfPouring_others i .stopped s).2) allLines b
  have hat : ∀ i, ∃ u : State, u.now = s.now ∧ u.line i = b.line i ∧
      (closeTower s).line i = (endIfPouring i .stopped u).line i := by
    intro i
    obtain ⟨u, hu, hline, hend, -⟩ := overLines_at (fun i s => (endIfPouring_others i .stopped s).1)
      (fun i s => (endIfPouring_others i .stopped s).2) allLines_nodup (mem_allLines i) b
    refine ⟨u, ?_, hline, by rw [e]; exact hend⟩
    exact ((hu .now (by simp)).trans (hab .now (by simp))).trans hnow
  rw [← e] at hbt
  have hbline : ∀ i, (s.line i).state ≠ .waiting → b.line i = s.line i := fun i hi => by
    rw [hout i fun h => hi ((hwait i).mpr h), hal]
  refine ⟨⟨?_, ?_, fun i hi => ?_, fun i hi => ?_, fun i p hi hp => ?_, ?_⟩, ?_⟩
  · rw [show (closeTower s).station = b.station from hbt .station (by simp),
      show b.station = a.station from hab .station (by simp), ha]
  · rw [show (closeTower s).starts = b.starts from hbt .starts (by simp), hbs, List.filter_eq_nil_iff,
      show a.starts = s.starts from hsa .starts (by simp)]
    intro x hx
    have hmem : x.line ∈ s.starts.map StartEntry.line := List.mem_map_of_mem hx
    simpa using ⟨x, hx, rfl⟩
  · obtain ⟨u, -, hline, hend⟩ := hat i
    rw [hbline i hi.1] at hline
    rw [hend, endIfPouring_idle .stopped (by rw [hline]; exact hi.2), hline]
  · obtain ⟨u, -, hline, hend⟩ := hat i
    have hbl := (hin i ((hwait i).mp hi)).1
    rw [hal, hnow] at hbl
    have hst : (u.line i).state = .off := by rw [hline]; exact congrArg Line.state hbl
    rw [hend, endIfPouring_idle .stopped (by rw [hst]; simp), hline, hbl]
  · obtain ⟨u, hun, hline, hend⟩ := hat i
    rw [hbline i (by rw [hi]; simp)] at hline
    have h := (endIfPouring_pouring (i := i) (s := u) .stopped (by rw [hline]; exact hi)
      (by rw [hline]; exact hp)).1.1
    rw [hend, h, hun, hline]
  · exact ((hsa.mono (by simp)).trans (hab.mono (by simp))).trans (hbt.mono (by simp))
  · exact (hbt .port (by simp)).trans ((hab .port (by simp)).trans (hsa .port (by simp)))

/-! ## What STOP makes of a line -/

/-- The state that STOP leaves a line of no pour and no list entry in (R29). -/
def LineState.stopped : LineState → LineState
  | .ready | .locked | .reserved | .cleaning => .off
  | st => st

/-- A line as STOP leaves it, once its pour, its entry and its run have ended (R29). -/
def offLine (l : Line) : Line := { l with state := l.state.stopped }

theorem offLine_keeps {l : Line} (h : l.state.stopped = l.state) : offLine l = l := by
  rw [offLine, h]

theorem offLine_congr {l l' : Line} (h : l.sansLamp = l'.sansLamp) :
    (offLine l).sansLamp = (offLine l').sansLamp :=
  congrArg offLine h

theorem unmarked_congr {l l' : Line} (h : l.sansLamp = l'.sansLamp) :
    ({ l with cleanMark := false } : Line).sansLamp = ({ l' with cleanMark := false } : Line).sansLamp :=
  congrArg (fun k : Line => { k with cleanMark := false }) h

theorem stopLine_spec (i : LineNo) (s : State) :
    ((stopLine i s).line i).sansLamp = (offLine (s.line i)).sansLamp ∧
      OtherLines i s (stopLine i s) ∧ Only [.lines] s (stopLine i s) := by
  obtain ⟨hline, hother, honly⟩ := setState_spec i .off s
  cases hst : (s.line i).state with
  | ready | locked | reserved | cleaning =>
    have e : stopLine i s = setState i .off s := by simp only [stopLine, hst]
    rw [e, hline.1, offLine, hst]
    exact ⟨rfl, hother, honly⟩
  | off | waiting | pouring | afterRun =>
    have e : stopLine i s = s := by simp only [stopLine, hst]
    rw [e, offLine_keeps (by rw [hst]; rfl)]
    exact ⟨rfl, OtherLines.refl i s, Only.refl _ s⟩

theorem stopLine_off {i : LineNo} {s : State} (h : (s.line i).state = .off) : stopLine i s = s := by
  simp only [stopLine, h]

/-- The lines go OFF and a STATUS is requested, once the run has ended (R29, R191). -/
def finishStop (s : State) : State := requestStatus (overLines stopLine allLines s)

theorem finishStop_spec {s : State} (hs : s.station ≠ .unconfigured) :
    StatusRequested s (finishStop s) ∧ Only [.lines, .link] s (finishStop s) ∧
      (∀ i, ((finishStop s).line i).sansLamp = (offLine (s.line i)).sansLamp) ∧
      ∀ i l, l.state = .off → LineBecomes s i l → LineBecomes (finishStop s) i l := by
  have hf : ∀ i s, OtherLines i s (stopLine i s) := fun i s => (stopLine_spec i s).2.1
  have hps : ∀ i s, Only [.lines] s (stopLine i s) := fun i s => (stopLine_spec i s).2.2
  have h1 := overLines_only hps allLines s
  have hline : ∀ i, ((overLines stopLine allLines s).line i).sansLamp = (offLine (s.line i)).sansLamp :=
    fun i => overLines_sansLamp hf hps allLines_nodup (mem_allLines i) fun u _ hu => by
      rw [(stopLine_spec i u).1, hu]
  have hoff : ∀ i l, l.state = .off → LineBecomes s i l →
      LineBecomes (overLines stopLine allLines s) i l := fun i l hl h =>
    overLines_becomes hf hps (by simp) allLines_nodup (mem_allLines i) fun u hu hul => by
      have hst : (u.line i).state = .off := by
        rw [hul]; exact (congrArg Line.state h.1).trans hl
      rw [stopLine_off hst]
      exact h.congr hul hu (by simp)
  obtain ⟨u, hu⟩ : ∃ u, u = overLines stopLine allLines s := ⟨_, rfl⟩
  rw [← hu] at h1 hline hoff
  have e : finishStop s = requestStatus u := by rw [hu]; rfl
  obtain ⟨hreq, h2⟩ := requestStatus_spec u (by
    rw [show u.station = s.station from h1 .station (by simp)]; exact hs)
  have hlines := fun i => line_congr (h2 .lines (by simp)) i
  rw [e]
  refine ⟨StatusRequested.of_link hreq (h1 .link (by simp)), (h1.mono (by simp)).trans (h2.mono (by simp)),
    fun i => ?_, fun i l hl h => (hoff i l hl h).congr (hlines i) h2 (by simp)⟩
  rw [hlines, hline]

theorem stoppedLine_keeps (now : Nat) (l : Line) :
    (stoppedLine now l).orders = l.orders ∧ (stoppedLine now l).lastPour = l.lastPour := by
  unfold stoppedLine
  split <;> exact ⟨rfl, rfl⟩

/-- A line that is OFF or in AFTER-RUN stays as it is (R29). -/
theorem stoppedLine_idle {now : Nat} {l : Line} (h : l.state = .off ∨ l.state = .afterRun) :
    stoppedLine now l = l := by
  unfold stoppedLine
  split <;> simp_all

section closed

variable {s c : State}

theorem TowerClosed.state_iff (hc : TowerClosed s c) (hp : PoursOk s) {st : LineState}
    (hst : st.quiet) (hne : st ≠ .off ∧ st ≠ .afterRun) (i : LineNo) :
    (c.line i).state = st ↔ (s.line i).state = st := by
  by_cases hw : (s.line i).state = .waiting
  · have h := congrArg Line.state (hc.waiting i hw)
    rw [show (c.line i).state = .off from h, hw]
    exact ⟨fun h => absurd h.symm hne.1, fun h => absurd h.symm hst.1⟩
  by_cases hpo : (s.line i).state = .pouring
  · have hsome : (s.line i).pour.isSome = true := by rw [(hp.1 i).1, Line.inPour, hpo]; rfl
    obtain ⟨p, hp'⟩ := Option.isSome_iff_exists.mp hsome
    have h := congrArg Line.state (hc.pouring i p hpo hp')
    rw [show (c.line i).state = .afterRun from h, hpo]
    exact ⟨fun h => absurd h.symm hne.2, fun h => absurd h.symm hst.2⟩
  · rw [hc.quiet i ⟨hw, hpo⟩]

/-- The lines that no run holds end as STOP leaves them (R29). -/
theorem TowerClosed.stopped (hc : TowerClosed s c) (hp : PoursOk s) {i : LineNo}
    (hst : (s.line i).state ≠ .reserved ∧ (s.line i).state ≠ .cleaning) :
    (offLine (c.line i)).sansLamp = (stoppedLine s.now (s.line i)).sansLamp := by
  cases hs : (s.line i).state with
  | waiting =>
    rw [offLine_congr (hc.waiting i hs), stoppedLine, hs]
    rfl
  | pouring =>
    have hsome : (s.line i).pour.isSome = true := by rw [(hp.1 i).1, Line.inPour, hs]; rfl
    obtain ⟨p, hp'⟩ := Option.isSome_iff_exists.mp hsome
    rw [offLine_congr (hc.pouring i p hs hp'), stoppedLine, hs, hp']
    rfl
  | reserved => exact absurd hs hst.1
  | cleaning => exact absurd hs hst.2
  | ready | locked =>
    rw [hc.quiet i (by rw [hs]; exact ⟨by simp, by simp⟩), stoppedLine, offLine, hs]
    rfl
  | off | afterRun =>
    rw [hc.quiet i (by rw [hs]; exact ⟨by simp, by simp⟩), offLine_keeps (by rw [hs]; rfl),
      stoppedLine_idle (by simp [hs])]

/-- What the rest of STOP makes of a station whose list, pours and run have ended. -/
theorem TowerClosed.finish (hc : TowerClosed s c) (hp : PoursOk s) (hr : RunOk s) {v : State}
    (hv : Only [.lines, .journal, .sources, .attn, .link, .cool, .clean] c v)
    (hlink : v.link = c.link ∨ StatusRequested c v)
    (hout : ∀ i, i ∉ s.selected → v.line i = c.line i) :
    (finishStop v).station = .stopped ∧ (finishStop v).starts = [] ∧
      StatusRequested s (finishStop v) ∧
      (∀ i, i ∉ s.selected → ((finishStop v).line i).sansLamp =
        (stoppedLine s.now (s.line i)).sansLamp) ∧
      Only [.lines, .link] v (finishStop v) := by
  have hvst : v.station = .stopped := (hv .station (by simp)).trans hc.station
  obtain ⟨hreq, hvt, hlines, -⟩ := finishStop_spec (s := v) (by rw [hvst]; simp)
  have hsc : c.link = s.link := hc.only .link (by simp)
  refine ⟨(hvt .station (by simp)).trans hvst,
    (hvt .starts (by simp)).trans ((hv .starts (by simp)).trans hc.starts), ?_, fun i hi => ?_, hvt⟩
  · rcases hlink with h | h
    · exact StatusRequested.of_link hreq (h.trans hsc)
    · exact (StatusRequested.of_link h hsc).trans hreq
  · obtain ⟨hcl, hres, -⟩ := hr.2.2 i
    rw [hlines, hout i hi, hc.stopped hp ⟨fun h => hi (hres h).1, fun h => hi (hcl.mp h).2⟩]

/-- The records of the run read nothing that the emptied list and the ended pours change. -/
theorem TowerClosed.runRecords_eq (hc : TowerClosed s c) {j : Job}
    (hcl : ∀ i ∈ linesOf j.lines, (s.line i).state = .cleaning) (result : RunResult) (last : Nat) :
    runRecords c j result last = runRecords s j result last := by
  have hj : c.journal = s.journal := hc.only .journal (by simp)
  have hclean : c.clean = s.clean := hc.only .clean (by simp)
  have hw : wasteRecords c j = wasteRecords s j := by
    rw [wasteRecords_eq, wasteRecords_eq]
    refine wasteFrom_congr (k := 0) (by simp [hj]) (by rw [hclean]) (by rw [hclean])
      (hc.only .config (by simp)) (fun x => by rw [source_congr (hc.only .sources (by simp))])
      (fun i hi => ?_) 0
    rw [hc.quiet i (by rw [hcl i hi]; exact ⟨by simp, by simp⟩)]
  rw [runRecords, runRecords, hw, hj, cleanRecord_congr j _ result _ (hc.only .seconds (by simp)).1
    (by rw [hclean])]

end closed

/-- A part that stands after all is left out of a frame. -/
theorem Only.of_same {ps qs : List Part} {s t : State} (h : Only ps s t)
    (hsame : ∀ q ∈ ps, q ∉ qs → q.same s t) : Only qs s t := by
  intro q hq
  by_cases hp : q ∈ ps
  · exact hsame q hp hq
  · exact h q hp

/-- The attention flags of records read the journal and the sources of the two states. -/
theorem attnWritten_congr {s s' t t' : State} (ha : s'.attn = s.attn)
    (hj : s'.journal = s.journal) (hc : s'.config = s.config) (hsrc : s'.sources = s.sources)
    (hj' : t'.journal = t.journal) (hsrc' : t'.sources = t.sources) :
    attnWritten s' t' = attnWritten s t := by
  have hcfg : s'.cfg = s.cfg := by simp only [State.cfg, hc]
  simp only [attnWritten, ha, hj, hcfg, hj', source_congr hsrc, source_congr hsrc']

/-! ## STOP -/

/-- What STOP makes of a run in RUNNING (R182, R184). -/
def RunStopped (j : Job) (p : Progress) (s t : State) : Prop :=
  t.clean = endedRun s.clean ∧ t.cool = { s.cool with coolOff := false } ∧
  t.journal = runJournal s (runRecords s j .aborted p.step) ∧
  Drew (runRecords s j .aborted p.step) s t ∧
  t.attn = { attnWritten s t with
    lineLocked := s.attn.lineLocked || decide (linesOf j.lines ≠ []), cleanEnd := true } ∧
  ∀ i ∈ linesOf j.lines, LineBecomes t i { s.line i with
    valve := .closed, creep := 0, lock := .cleanIncomplete, state := .off }

/-- What STOP makes of a run in PREPARING or CLAIMING (R183). -/
def ClaimStopped (j : Job) (s t : State) : Prop :=
  t.clean = idleRun s.clean ∧ t.cool = s.cool ∧ t.sources = s.sources ∧
  t.journal = runJournal s [cleanRecord s j s.journal.seq .aborted none] ∧
  t.attn = { attnWritten s t with cleanEnd := true } ∧
  ∀ i ∈ linesOf j.lines, (t.line i).sansLamp =
    (if (s.line i).state = .reserved then
        ({ s.line i with state := .off, lock := .clear } : Line)
      else { stoppedLine s.now (s.line i) with cleanMark := false }).sansLamp

section stopped

variable {s c : State} {j : Job} {p : Progress}

theorem endRunning_stopped (hc : TowerClosed s c) (hp : PoursOk s) (hl : LedgerOk s) (hr : RunOk s)
    (hrun : s.clean.runState = .running) (hjob : s.clean.job = some j)
    (hprog : s.clean.progress = some p) :
    RunStopped j p s (finishStop (endRunning .aborted c)) ∧
      StatusRequested c (endRunning .aborted c) ∧
      (∀ i, i ∉ s.selected → (endRunning .aborted c).line i = c.line i) ∧
      Only [.lines, .journal, .sources, .attn, .link, .cool, .clean] c (endRunning .aborted c) := by
  have hclean : c.clean = s.clean := hc.only .clean (by simp)
  have hj : c.journal = s.journal := hc.only .journal (by simp)
  have hsel : s.selected = linesOf j.lines := by simp only [State.selected, hjob]
  have hcl : ∀ i ∈ linesOf j.lines, (s.line i).state = .cleaning := fun i hi =>
    ((hr.2.2 i).1).mpr ⟨hrun, hsel ▸ hi⟩
  have hslots : c.clean.slots = 1 + (linesOf j.lines).length := by
    have h := hl.2.2
    rw [hjob] at h
    rw [hclean, h]
  obtain ⟨hvc, hvcool, hvreq, hvdrew, hvattn, hvin, ⟨hvout, hvs, hvp, hvj⟩, hvo⟩ :=
    endRunning_quiet .aborted (by rw [hc.station]; simp) hc.starts (by rw [hclean, hjob])
      (by rw [hclean, hprog]) hslots
  rw [slotsReturned_quiet hc.starts] at hvout hvs hvp hvj
  rw [hc.runRecords_eq hcl] at hvdrew hvj hvout hvs hvp
  generalize endRunning .aborted c = v at *
  have hv : Only [.lines, .journal, .sources, .attn, .link, .cool, .clean] c v := by
    refine hvo.of_same fun q hq hnot => ?_
    cases q
    case starts => exact hvs
    case pours => exact hvp
    all_goals simp at hq hnot
  obtain ⟨-, -, -, hft⟩ := finishStop_spec (s := v) (by
    rw [show v.station = c.station from hv .station (by simp), hc.station]; simp)
  obtain ⟨-, -, -, -, ho⟩ := hc.finish hp hr hv (.inr hvreq) (by rw [hsel]; exact hvout)
  generalize finishStop v = t at *
  have hattn : attnWritten c v = attnWritten s t :=
    attnWritten_congr (hc.only .attn (by simp)) hj (hc.only .config (by simp))
      (hc.only .sources (by simp)) (ho .journal (by simp)).symm (ho .sources (by simp)).symm
  refine ⟨⟨?_, ?_, ?_, ?_, ?_, fun i hi => hft i _ rfl ?_⟩, hvreq, by rw [hsel]; exact hvout, hv⟩
  · rw [show t.clean = v.clean from ho .clean (by simp), hvc, hclean]
  · rw [show t.cool = v.cool from ho .cool (by simp), hvcool, show c.cool = s.cool from hc.only .cool (by simp)]
  · rw [show t.journal = v.journal from ho .journal (by simp), hvj, runJournal, runJournal, hj, hclean]
  · exact hvdrew.congr (hc.only .sources (by simp)).symm (hc.only .config (by simp)).symm
      (ho .sources (by simp)) (ho .peers (by simp))
  · rw [show t.attn = v.attn from ho .attn (by simp), hvattn, hattn,
      show c.attn = s.attn from hc.only .attn (by simp)]
    simp
  · have h := hvin i hi
    rw [hc.quiet i (by rw [hcl i hi]; exact ⟨by simp, by simp⟩), hc.station] at h
    simpa using h

theorem endEarly_stopped (hc : TowerClosed s c) (hp : PoursOk s) (hl : LedgerOk s) (hr : RunOk s)
    (hrun : s.clean.runState = .preparing ∨ s.clean.runState = .claiming)
    (hjob : s.clean.job = some j) :
    ClaimStopped j s (finishStop (endEarly c)) ∧
      ((endEarly c).link = c.link ∨ StatusRequested c (endEarly c)) ∧
      (∀ i, i ∉ s.selected → (endEarly c).line i = c.line i) ∧
      Only [.lines, .journal, .sources, .attn, .link, .cool, .clean] c (endEarly c) := by
  have hclean : c.clean = s.clean := hc.only .clean (by simp)
  have hj : c.journal = s.journal := hc.only .journal (by simp)
  have hsel : s.selected = linesOf j.lines := by simp only [State.selected, hjob]
  have hres := hc.state_iff hp (st := .reserved) ⟨by simp, by simp⟩ ⟨by simp, by simp⟩
  have hkept : ∀ i, (s.line i).state = .reserved → c.line i = s.line i := fun i hi =>
    hc.quiet i (by rw [hi]; exact ⟨by simp, by simp⟩)
  have hslots : 1 ≤ c.clean.slots := by
    have h := hl.2.2
    rw [hjob] at h
    rw [hclean, h]
    exact Nat.le_add_right ..
  have hmark : ∀ i ∈ linesOf j.lines, (c.line i).state = .reserved → (c.line i).cleanMark = false := by
    intro i _ hi
    have hsi := (hres i).mp hi
    rw [hkept i hsi, ← Bool.not_eq_true]
    intro hm
    have hin := ((hr.2.2 i).2.2.2.1.mp hm).2.2
    rw [Line.inPour, hsi] at hin
    simp at hin
  obtain ⟨hvc, hvreq, hvlink, hvattn, hvin, ⟨hvout, hvs, hvp, hvj⟩, hvo⟩ :=
    endEarly_quiet (by rw [hc.station]; simp) hc.starts (by rw [hclean, hjob]) hslots hmark
  rw [slotsReturned_quiet hc.starts] at hvout hvs hvp hvj
  rw [cleanRecord_congr j _ _ _ (hc.only .seconds (by simp)).1 (by rw [hclean]), hj] at hvj hvout hvs hvp
  generalize endEarly c = v at *
  have hv : Only [.lines, .journal, .sources, .attn, .link, .cool, .clean] c v := by
    refine hvo.of_same fun q hq hnot => ?_
    cases q
    case starts => exact hvs
    case pours => exact hvp
    all_goals simp at hq hnot
  have hlk : v.link = c.link ∨ StatusRequested c v := by
    rw [hclean] at hvreq hvlink
    exact hrun.imp hvlink hvreq
  obtain ⟨-, -, hline, -⟩ := finishStop_spec (s := v) (by
    rw [show v.station = c.station from hv .station (by simp), hc.station]; simp)
  obtain ⟨-, -, -, -, ho⟩ := hc.finish hp hr hv hlk (by rw [hsel]; exact hvout)
  generalize finishStop v = t at *
  have hattn : attnWritten c v = attnWritten s t :=
    attnWritten_congr (hc.only .attn (by simp)) hj (hc.only .config (by simp))
      (hc.only .sources (by simp)) (ho .journal (by simp)).symm (ho .sources (by simp)).symm
  refine ⟨⟨?_, ?_, ?_, ?_, ?_, fun i hi => ?_⟩, hlk, by rw [hsel]; exact hvout, hv⟩
  · rw [show t.clean = v.clean from ho .clean (by simp), hvc, hclean]
  · exact (ho .cool (by simp)).trans ((hvo .cool (by simp)).trans (hc.only .cool (by simp)))
  · exact (ho .sources (by simp)).trans ((hvo .sources (by simp)).trans (hc.only .sources (by simp)))
  · rw [show t.journal = v.journal from ho .journal (by simp), hvj, runJournal, runJournal, hj, hclean]
  · rw [show t.attn = v.attn from ho .attn (by simp), hvattn, hattn]
  · rw [hline, offLine_congr (hvin i hi)]
    by_cases hi' : (s.line i).state = .reserved
    · rw [if_pos ((hres i).mpr hi'), if_pos hi', hc.station, hkept i hi']
      rfl
    · rw [if_neg (mt (hres i).mp hi'), if_neg hi']
      have hncl : (s.line i).state ≠ .cleaning := fun h => by
        have hrunning := ((hr.2.2 i).1.mp h).1
        rcases hrun with hrun | hrun <;> simp [hrun] at hrunning
      exact unmarked_congr (hc.stopped hp ⟨hi', hncl⟩)

end stopped

/-! ## The command -/

theorem TowerClosed.of_beginCommand {s c : State} (hc : TowerClosed (beginCommand s) c) :
    TowerClosed s c := by
  obtain ⟨hstation, hstarts, hquiet, hwaiting, hpouring, honly⟩ := hc
  refine ⟨hstation, hstarts, hquiet, hwaiting, hpouring, fun q hq => ?_⟩
  have h := honly q hq
  cases q
  case port => simp at hq
  all_goals exact h

/-- The frame of STOP, once its answer has been put in the port. -/
theorem Only.with_port {ps : List Part} {s u : State} (h : Only (.port :: ps) s u) :
    Only ps s { u with port := s.port } := by
  intro q hq
  by_cases hp : q = .port
  · subst hp; rfl
  · have h' := h q (by simp [hp, hq])
    cases q
    case port => exact absurd rfl hp
    all_goals exact h'

/-- What STOP comes to in every run state. -/
def Stopped (s t : State) : Prop :=
  t.station = .stopped ∧ t.starts = [] ∧ StatusRequested s t ∧
  Only [.station, .lines, .starts, .journal, .sources, .attn, .link, .cool, .clean] s t ∧
  (∀ i, i ∉ s.selected → (t.line i).sansLamp = (stoppedLine s.now (s.line i)).sansLamp) ∧
  (s.clean.runState = .idle → Only [.station, .lines, .starts, .link] s t) ∧
  (∀ j p, s.clean.runState = .running → s.clean.job = some j → s.clean.progress = some p →
    RunStopped j p s t) ∧
  (∀ j, s.clean.runState = .preparing ∨ s.clean.runState = .claiming → s.clean.job = some j →
    ClaimStopped j s t)

/-- The port left out of account, the state after STOP is the state that its body leaves. -/
theorem stopped_with_port {s c v : State} (hc : TowerClosed s c) (hp : PoursOk s) (hr : RunOk s)
    (hv : Only [.lines, .journal, .sources, .attn, .link, .cool, .clean] c v)
    (hlink : v.link = c.link ∨ StatusRequested c v)
    (hout : ∀ i, i ∉ s.selected → v.line i = c.line i)
    (hidle : s.clean.runState = .idle → v = c)
    (hrun : ∀ j p, s.clean.runState = .running → s.clean.job = some j → s.clean.progress = some p →
      RunStopped j p s (finishStop v))
    (hclaim : ∀ j, s.clean.runState = .preparing ∨ s.clean.runState = .claiming →
      s.clean.job = some j → ClaimStopped j s (finishStop v)) :
    Stopped s { finishStop v with port := s.port } ∧ (finishStop v).port = c.port := by
  obtain ⟨hst, hstarts, hreq, hlines, ho⟩ := hc.finish hp hr hv hlink hout
  refine ⟨?_, (ho .port (by simp)).trans (hv .port (by simp))⟩
  generalize finishStop v = u at *
  have hport : Only [.port] u { u with port := s.port } := by
    intro q hq; cases q <;> simp_all [Part.same]
  refine ⟨hst, hstarts, hreq, ?_, hlines, fun h => ?_, fun j p h hj hp' => ?_, hclaim⟩
  · exact (((hc.only.mono (by simp)).trans (hv.mono (by simp))).trans (ho.mono (by simp))).with_port
  · rw [hidle h] at ho
    exact ((hc.only.mono (by simp)).trans (ho.mono (by simp))).with_port
  · obtain ⟨hclean, hcool, hj', hdrew, hattn, hin⟩ := hrun j p h hj hp'
    exact ⟨hclean, hcool, hj', hdrew.congr rfl rfl rfl rfl, hattn,
      fun i hi => (hin i hi).congr rfl hport (by simp)⟩

/-- The station leaves RUNNING, whatever its run (R29, R186). -/
theorem finishStop_stopped {s c : State} (hc : TowerClosed s c) (hp : PoursOk s) (hl : LedgerOk s)
    (hr : RunOk s) : Stopped s { finishStop (abortRun c) with port := s.port } ∧
      (finishStop (abortRun c)).port = c.port := by
  have hclean : c.clean = s.clean := hc.only .clean (by simp)
  cases hrs : s.clean.runState with
  | idle =>
    have e : abortRun c = c := by simp only [abortRun, hclean, hrs]
    rw [e]
    exact stopped_with_port hc hp hr (Only.refl _ c) (.inl rfl) (fun _ _ => rfl) (fun _ => rfl)
      (fun j p h => by simp [hrs] at h) (fun j h => by simp [hrs] at h)
  | preparing | claiming =>
    have e : abortRun c = endEarly c := by simp only [abortRun, hclean, hrs]
    have hpc : s.clean.runState = .preparing ∨ s.clean.runState = .claiming := by simp [hrs]
    have hjob : s.clean.job ≠ none := fun h => by simp [hr.1.mpr h] at hpc
    obtain ⟨j, hj⟩ := Option.ne_none_iff_exists'.mp hjob
    obtain ⟨-, hlink, hout, hv⟩ := endEarly_stopped hc hp hl hr hpc hj
    rw [e]
    exact stopped_with_port hc hp hr hv hlink hout (fun h => by simp [hrs] at h)
      (fun j p h => by simp [hrs] at h) (fun j h hj => (endEarly_stopped hc hp hl hr h hj).1)
  | running =>
    have e : abortRun c = endRunning .aborted c := by simp only [abortRun, hclean, hrs]
    have hjob : s.clean.job ≠ none := fun h => by simp [hr.1.mpr h] at hrs
    obtain ⟨j, hj⟩ := Option.ne_none_iff_exists'.mp hjob
    obtain ⟨p, hprog⟩ := Option.isSome_iff_exists.mp (hr.2.1.mp hrs)
    obtain ⟨-, hreq, hout, hv⟩ := endRunning_stopped hc hp hl hr hrs hj hprog
    rw [e]
    exact stopped_with_port hc hp hr hv (.inr hreq) hout (fun h => by simp [hrs] at h)
      (fun j p h hj hprog => (endRunning_stopped hc hp hl hr h hj hprog).1)
      (fun j h => by simp [hrs] at h)

/-- Order queues and last-pour records outlast STOP (R29). -/
theorem Stopped.keeps {s t : State} (h : Stopped s t) (hr : RunOk s) (i : LineNo) :
    (t.line i).orders = (s.line i).orders ∧ (t.line i).lastPour = (s.line i).lastPour := by
  obtain ⟨-, -, -, -, hout, -, hrun, hclaim⟩ := h
  have of_sansLamp : ∀ l : Line, (t.line i).sansLamp = l.sansLamp →
      l.orders = (s.line i).orders ∧ l.lastPour = (s.line i).lastPour →
      (t.line i).orders = (s.line i).orders ∧ (t.line i).lastPour = (s.line i).lastPour :=
    fun l h hl => ⟨(congrArg Line.orders h).trans hl.1, (congrArg Line.lastPour h).trans hl.2⟩
  by_cases hi : i ∈ s.selected
  · have hjob : ∃ j, s.clean.job = some j ∧ i ∈ linesOf j.lines := by
      unfold State.selected at hi
      cases hj : s.clean.job with
      | none => simp [hj] at hi
      | some j => rw [hj] at hi; exact ⟨j, rfl, hi⟩
    obtain ⟨j, hj, hi⟩ := hjob
    cases hrs : s.clean.runState with
    | idle => rw [hr.1.mp hrs] at hj; simp at hj
    | preparing | claiming =>
      refine of_sansLamp _ ((hclaim j (by simp [hrs]) hj).2.2.2.2.2 i hi) ?_
      split
      · exact ⟨rfl, rfl⟩
      · exact stoppedLine_keeps s.now (s.line i)
    | running =>
      obtain ⟨p, hprog⟩ := Option.isSome_iff_exists.mp (hr.2.1.mp hrs)
      exact of_sansLamp _ ((hrun j p hrs hj hprog).2.2.2.2.2 i hi).1 ⟨rfl, rfl⟩
  · exact of_sansLamp _ (hout i hi) (stoppedLine_keeps s.now (s.line i))

/-- Settles O15: STOP closes the tower, which leaves the run a station with an empty list; the run then
ends as it does without a service walk, and the lines go OFF. -/
theorem stopCommand : Obligations.StopCommand := by
  intro s h
  refine ⟨fun hs => congrArg _ (command_unchanged h ?_), fun hs hok => ?_⟩
  · simp [stopBody, hs, refuse]
  · obtain ⟨hp, hl, hw, hr, -⟩ := hok
    have hb : stopBody (beginCommand s) =
        (finishStop (abortRun (closeTower (beginCommand s))), .ok, []) := by
      simp only [stopBody, beginCommand_station, hs, ne_eq, not_true_eq_false, if_false]
      rfl
    obtain ⟨hc, hcport⟩ := closeTower_spec (s := beginCommand s) hw
    generalize closeTower (beginCommand s) = c at hb hc hcport
    obtain ⟨hstop, hport⟩ := finishStop_stopped hc.of_beginCommand hp hl hr
    have hkeep := hstop.keeps hr
    obtain ⟨hst, hstarts, hreq, ho, hout, hidle, hrun, hclaim⟩ := hstop
    generalize finishStop (abortRun c) = u at *
    have hex := command_of_body h hb (hport.trans hcport) (ho .now (by simp))
    exact ⟨_, congrArg _ hex, hst, hstarts, hreq, ho, hkeep, hout, hidle, hrun, hclaim⟩

end Sys2Proof.Machine

/-! SUPPORT. The fields of the responses (R195), and the statement about the reading commands. -/

namespace Sys2Proof.Machine

/-! ## Fields -/

/-- A field that is present under a condition (R195). -/
theorem encOpt_ite {α : Type} (f : α → List Byte) (p : Prop) [Decidable p] (a : α) :
    encOpt f (if p then some a else none) = if p then 1 :: f a else [0] := by
  split <;> rfl

theorem Phase.code_eq (p : Phase) : p.code = if p = .dwell then 0 else 1 := by
  cases p <;> rfl

theorem LineMode.code_eq (m : LineMode) : m.code = if m = .free then 0 else 1 := by
  cases m <;> rfl

theorem Announced.byte_eq (a : Announced) : a.byte = BitVec.ofNat 8 (if a = .stopped then 0 else 1) := by
  cases a <;> rfl

/-- A bit of a set of lines (R195). -/
theorem getLsbD_foldl_lines (is : List LineNo) (b : Byte) {n : Nat} (hn : n < 8) :
    (is.foldl (fun b i => b ||| (1#8 <<< i.val)) b).getLsbD n =
      (b.getLsbD n || is.any fun i => i.val == n) := by
  induction is generalizing b with
  | nil => simp
  | cons i rest ih =>
    have hbit : (1#8 <<< i.val).getLsbD n = (i.val == n) := by
      have hi : i.val < 8 := i.isLt
      rw [BitVec.getLsbD_shiftLeft, BitVec.getLsbD_one, Bool.eq_iff_iff]
      simp
      omega
    rw [List.foldl_cons, ih, List.any_cons, BitVec.getLsbD_or, hbit, Bool.or_assoc]

/-- A set of lines, line by line (R195). -/
theorem encLines_filter (f : LineNo → Bool) : encLines (allLines.filter f) =
    [BitVec.ofBoolListLE [f 0, f 1, f 2, f 3, f 4, f 5, f 6, f 7]] := by
  rw [encLines]
  congr 1
  refine BitVec.eq_of_getLsbD_eq fun n hn => ?_
  rw [getLsbD_foldl_lines _ _ hn, BitVec.getLsbD_ofBoolListLE, List.any_filter]
  have h8 : n = 0 ∨ n = 1 ∨ n = 2 ∨ n = 3 ∨ n = 4 ∨ n = 5 ∨ n = 6 ∨ n = 7 := by omega
  rcases h8 with rfl | rfl | rfl | rfl | rfl | rfl | rfl | rfl <;> simp [allLines]

/-- Some of the selected lines, as a set of lines. -/
theorem selected_filter (s : State) (f : LineNo → Bool) :
    s.selected.filter f = allLines.filter fun i => s.selected.contains i && f i := by
  cases hj : s.clean.job with
  | none => simp [State.selected, hj]
  | some j =>
    have hsel : s.selected = allLines.filter fun i => j.lines.getLsbD i.val := by
      simp only [State.selected, hj, linesOf]
    rw [hsel, List.filter_filter]
    refine List.filter_congr fun i hi => ?_
    have hmem : ((allLines.filter fun i => j.lines.getLsbD i.val).contains i) = j.lines.getLsbD i.val := by
      rw [Bool.eq_iff_iff, List.contains_iff_mem, List.mem_filter]
      exact ⟨fun h => h.2, fun h => ⟨hi, h⟩⟩
    rw [hmem, Bool.and_comm]

theorem secondsLeft_eq (now t : Nat) : secondsLeft now t = (t - now + 499999) / 500000 := by
  have h : t - now + 500000 - 1 = t - now + 499999 := by omega
  rw [← h, secondsLeft, ceilDiv, sec]

/-- The time since the last STATUS as it is shown (R132). -/
theorem shownTime_eq (now : Nat) (p : PeerRec) : shownTime now p =
    min ((now - p.lastAt) / 500) (if p.fresh then 2999 else 65535) := by
  unfold shownTime sinceStatus sat elapsed msec max16
  cases p.fresh <;> simp

/-! ## The Peer Table -/

theorem peerCount_eq (s : State) : s.peerCount = (s.peers.toList.filter Option.isSome).length := by
  unfold State.peerCount State.peerList
  induction s.peers.toList with
  | nil => rfl
  | cons o os ih =>
    cases o with
    | none => exact ih
    | some p => exact congrArg (· + 1) ih

/-- The peer records with their station numbers, slot by slot. -/
theorem numberedPeers_eq (s : State) : s.numberedPeers =
    (List.finRange 32).filterMap fun m => (s.peer m).map fun p => (m.val + 1, p) := by
  have h : s.peers.toList.zipIdx 1 = (List.finRange 32).map fun m => (s.peer m, m.val + 1) := by
    refine List.ext_getElem (by simp) fun k h1 h2 => ?_
    simp [State.peer, Nat.add_comm]
  rw [State.numberedPeers, h, List.filterMap_map]
  rfl

/-- The first of some numbered records above a number. -/
theorem find?_filterMap_map_fst {α β : Type} (ms : List α) (g : α → Option β) (num : α → Nat) (n : Nat) :
    ((ms.filterMap fun m => (g m).map fun p => (num m, p)).find? fun e => n < e.1).map Prod.fst =
      (ms.find? fun m => n < num m && (g m).isSome).map num := by
  induction ms with
  | nil => rfl
  | cons m ms ih =>
    cases hg : g m with
    | none =>
      rw [List.filterMap_cons_none (by simp [hg]), List.find?_cons_of_neg (by simp [hg]), ih]
    | some p =>
      rw [List.filterMap_cons_some (b := (num m, p)) (by simp [hg])]
      by_cases hn : n < num m
      · rw [List.find?_cons_of_pos (by simpa using hn), List.find?_cons_of_pos (by simp [hg, hn])]
        rfl
      · rw [List.find?_cons_of_neg (by simpa using hn), List.find?_cons_of_neg (by simp [hn]), ih]

theorem nextPeer_eq (s : State) (n : Nat) : s.nextPeer n =
    ((List.finRange 32).find? fun m => n < m.val + 1 && (s.peer m).isSome).map fun m => m.val + 1 := by
  rw [State.nextPeer, numberedPeers_eq]
  exact find?_filterMap_map_fst _ _ _ n

/-- The cumulatives that the records of a source's generation add to its peer draw (R83). -/
def drawsOf (s : State) (x : SourceNo) : List Nat :=
  s.peers.toList.filterMap fun o => o.bind fun p =>
    (listed p.body.entries x).bind fun e => if e.gen = (s.source x).gen then some e.cum.toNat else none

theorem filterMap_countedDraw (s : State) (x : SourceNo) :
    s.peerList.filterMap (countedDraw (s.source x).gen x) = drawsOf s x := by
  have h : ∀ p, countedDraw (s.source x).gen x p = (listed p.body.entries x).bind fun e =>
      if e.gen = (s.source x).gen then some e.cum.toNat else none := by
    intro p
    rw [countedDraw, show firstEntry p.body.entries x = listed p.body.entries x from rfl]
    cases listed p.body.entries x <;> rfl
  rw [State.peerList, List.filterMap_filterMap, drawsOf]
  congr 1
  funext o
  cases o with
  | none => rfl
  | some p => exact h p

theorem countedMark_eq (s : State) (before : List LinkEntry) (e : LinkEntry) :
    countedMark s before e = (!(before.any fun q => q.source == e.source) &&
      allSources.any fun x => e.source.toNat == x.val && e.gen == (s.source x).gen) := by
  unfold countedMark
  split
  case isTrue h =>
    congr 1
    rw [Bool.eq_iff_iff, List.any_eq_true]
    constructor
    · exact fun hg => ⟨⟨e.source.toNat, h⟩, mem_allSources _, by simpa using hg⟩
    · rintro ⟨x, -, hx⟩
      simp only [Bool.and_eq_true, beq_iff_eq] at hx
      have hx' : (⟨e.source.toNat, h⟩ : SourceNo) = x := Fin.ext hx.1
      rw [hx']
      simpa using hx.2
  case isFalse h =>
    have hnone : (allSources.any fun x => e.source.toNat == x.val && e.gen == (s.source x).gen) = false := by
      rw [List.any_eq_false]
      intro x _ hx
      simp only [Bool.and_eq_true, beq_iff_eq] at hx
      exact h (hx.1 ▸ x.isLt)
    rw [hnone, Bool.and_false]

/-- An entry of a record with its counted mark, the entries before it given. -/
def markedEntry (s : State) (before : List LinkEntry) (e : LinkEntry) : List Byte :=
  [e.source, e.gen] ++ encBool e.empty ++ bytes32 e.full ++ bytes32 e.cum ++
    encBool (countedMark s before e)

/-- The entries of a record by their places: before the nth stand the first n. -/
theorem markedEntries_eq (s : State) (before es : List LinkEntry) : markedEntries s before es =
    (es.zipIdx before.length).flatMap fun e => markedEntry s ((before ++ es).take e.2) e.1 := by
  induction es generalizing before with
  | nil => rfl
  | cons e rest ih =>
    rw [markedEntries, ih, List.zipIdx_cons, List.flatMap_cons]
    simp [markedEntry]

/-- READ-PEER for a station of which the table holds no record (R132). -/
theorem readPeerBody_notFound {s : State} {b : Byte} {n : Fin 32} (hs : s.station ≠ .unconfigured)
    (hn : b.toNat = n.val + 1) (hp : s.peer n = none) :
    readPeerBody b (beginCommand s) = (beginCommand s, .notFound, tableData s b.toNat) := by
  have hp' : (beginCommand s).peer n = none := hp
  simp only [readPeerBody, beginCommand_station, if_neg hs, peerIndex_eq hn, hp']
  rfl

theorem peerData_beginCommand (s : State) (n : Nat) (p : PeerRec) :
    peerData (beginCommand s) n p = peerData s n p := by
  simp only [peerData, markedEntries_eq]
  rfl

/-- READ-PEER for a station of which the table holds a record (R132). -/
theorem readPeerBody_found {s : State} {b : Byte} {n : Fin 32} {p : PeerRec}
    (hs : s.station ≠ .unconfigured) (hn : b.toNat = n.val + 1) (hp : s.peer n = some p) :
    readPeerBody b (beginCommand s) =
      (beginCommand s, .ok, tableData s b.toNat ++ peerData s b.toNat p) := by
  have hp' : (beginCommand s).peer n = some p := hp
  simp only [readPeerBody, beginCommand_station, if_neg hs, peerIndex_eq hn, hp', peerData_beginCommand]
  rfl

/-! ## The reading commands that clear what they read -/

/-- READ-ATTENTION returns the set and empties it (R190). -/
theorem command_readAttention {s : State} (h : s.accepts) :
    command readAttentionBody s = answer .ok [s.attn.byte] { s with attn := .none } :=
  command_of_body (body := readAttentionBody) (u := { beginCommand s with attn := .none }) h rfl rfl rfl

/-- READ-LINK returns the counters and clears them (R120). -/
theorem command_readLink {s : State} (h : s.accepts) (hs : s.station ≠ .unconfigured) :
    command readLinkBody s = answer .ok (linkData s) { s with link := { s.link with
      charErr := 0, formatErr := 0, crcErr := 0, collisions := 0, drops := 0 } } := by
  refine command_of_body (body := readLinkBody) (u := { beginCommand s with link := { s.link with
    charErr := 0, formatErr := 0, crcErr := 0, collisions := 0, drops := 0 } }) h ?_ rfl rfl
  rw [readLinkBody, beginCommand_station, if_neg hs]
  rfl

end Sys2Proof.Machine

/-! SUPPORT. The statement about the reading commands (R30, R97, R120, R132, R153, R172, R187, R190, R194). -/

namespace Sys2Proof.Machine

/-- Settles O11: each block of fields is the data that its command answers with; an optional field is taken
apart once, and the lists of lines, peers and entries by their own lemmas. -/
theorem readingCommands : Obligations.ReadingCommands := by
  intro s h b1 b2 b4 yes present absent opt lineSet attention f flags lineState kind reason station general
    k cooling c recipe run lineFields sourceFields table peerFields
  have hopt : ∀ {α : Type} (g : α → List Byte) (o : Option α), encOpt g o = opt (o.map g) := by
    intro α g o; cases o <;> rfl
  have hgen : stationData s = station ++ general := by
    simp only [stationData, station, general, List.append_assoc]
    rfl
  have hcool : coolData s = cooling := by
    simp only [coolData, hopt]
    rfl
  have hrecipe : recipeData s = recipe := by
    simp only [recipeData, recipe, Phase.code_eq]
    cases c.progress <;> rfl
  have hrun : runData s = run := by
    simp only [runData, selected_filter, encLines_filter, encOpt_ite]
    simp only [hopt]
    rfl
  have hline : ∀ i, lineData s i = lineFields i := by
    intro i
    have hentry : entryData s.now = fun e => kind e ++
        opt (e.expiry.map fun t => b1 ((t - s.now + 499999) / 500000)) := by
      funext e; simp only [entryData, secondsLeft_eq, hopt]; rfl
    have hpour : pourData s.now = fun p => b1 p.mode.code ++ opt (p.tag.map bytes16) ++
        opt (p.pulseTarget.map b2) ++ b2 p.total ++ b2 p.foam ++
        b2 (min ((s.now - p.openedAt) / 5000) 65535) ++ opt (p.endReason.map reason) := by
      funext p; simp only [pourData, hopt]; rfl
    simp only [lineData, hentry, hpour, hopt, LineMode.code_eq, lineFields]
    cases s.configured i <;> rfl
  have hsource : ∀ x, sourceData s x = sourceFields x := by
    intro x
    simp only [sourceData, State.peerDraw, State.countedPeers, State.drawn, State.remaining,
      filterMap_countedDraw, State.linesOn, encLines_filter, hopt, apply_ite (Option.map enc4), Option.map_none,
      Option.map_some]
    rfl
  have htable : ∀ b, tableData s b.toNat = table b := by
    intro b
    simp only [tableData, peerCount_eq, nextPeer_eq, hopt, Option.map_map]
    rfl
  have hpeer : ∀ b p, peerData s b.toNat p = peerFields b p := by
    intro b p
    have hb : enc1 b.toNat = [b] := by simp [enc1]
    simp only [peerData, hb, markedEntries_eq, markedEntry, countedMark_eq, shownTime_eq, Announced.byte_eq,
      List.nil_append, peerFields]
    cases p.body.clean <;> rfl
  refine ⟨?_, fun b => ⟨fun hs => ⟨?_, ?_, ?_⟩, fun hs => ⟨fun hb => ?_, fun hb => ?_, fun hb => ?_,
    fun i hi => ?_, fun x hx => ?_, fun n hn => ?_⟩⟩, fun hs => ?_, fun hs => ?_, ?_⟩
  · rw [← hrun, ← hrecipe, ← hcool, ← hgen]
    exact congrArg _ (command_unchanged h rfl)
  · exact congrArg _ (command_unchanged h (by simp [readLineBody, hs, refuse]))
  · exact congrArg _ (command_unchanged h (by simp [readSourceBody, hs, refuse]))
  · exact congrArg _ (command_unchanged h (by simp [readPeerBody, hs, refuse]))
  · exact congrArg _ (command_unchanged h (by simp [readLineBody, hs, lineOfByte_none hb, refuse]))
  · exact congrArg _ (command_unchanged h (by simp [readSourceBody, hs, sourceOfByte_none hb, refuse]))
  · exact congrArg _ (command_unchanged h (by simp [readPeerBody, hs, peerIndex_none hb, refuse]))
  · rw [← hline]
    refine congrArg _ (command_unchanged h ?_)
    simp only [readLineBody, beginCommand_station, hs, lineOfByte_eq hi, if_false]
    rfl
  · rw [← hsource]
    refine congrArg _ (command_unchanged h ?_)
    simp only [readSourceBody, beginCommand_station, hs, sourceOfByte_eq hx, if_false]
    rfl
  · cases hp : s.peer n with
    | none => exact congrArg _ (command_unchanged h (by rw [readPeerBody_notFound hs hn hp, htable]))
    | some p =>
      exact congrArg _ (command_unchanged h (by rw [readPeerBody_found hs hn hp, htable, hpeer]))
  · exact congrArg _ (command_unchanged h (by simp [readLinkBody, hs, refuse]))
  · refine congrArg _ ((command_readLink h hs).trans (congrArg (answer .ok · _) ?_))
    simp only [linkData]
    cases s.link.current with
    | none => rfl
    | some c =>
      obtain ⟨sent, collisions⟩ := c
      cases sent <;> rfl
  · exact ⟨_, congrArg Host.Outcome.next (command_readAttention h), rfl, rfl⟩

end Sys2Proof.Machine

/-! SUPPORT. The events that are due, block by block (R4 to R188, log 1, 2 and 22). -/

namespace Sys2Proof.Machine

/-! ## Durations and lists of events -/

theorem some_eq_dueIf {b : Bool} {i c : Instr} : some c = dueIf b i ↔ b = true ∧ c = i := by
  cases b <;> simp [dueIf]

theorem ran_iff (since : Option Nat) (units : Nat) (s : State) :
    ran since units s.now = true ↔ Reached since units s := by
  cases since <;> simp [ran, Reached]

theorem heldFor_iff (since : Option Nat) (units : Nat) (s : State) :
    heldFor since units s.now = true ↔ Reached since units s := by
  cases since <;> simp [heldFor, Reached]

theorem reached_some (t units : Nat) (s : State) : Reached (some t) units s ↔ t + units ≤ s.now := by
  simp [Reached]

/-- The events of the block that may be due, of which the first that is due is taken (log 2). -/
def dueEvents (s : State) : List (Option Instr) :=
  if s.station = .unconfigured then inputsDue s ++ portDue s
  else dueIf (missingChar s) .collision :: inputsDue s ++ portDue s ++ coolDue s ++
    allLines.flatMap (lineDue s) ++ startsDue s ++ linkDue s ++ cleanDue s

theorem due_of_reset {s : State} (h : s.rstnLow = true) : due s = none := by
  simp [due, h]

theorem due_eq {s : State} (h : s.rstnLow = false) : due s = (dueEvents s).findSome? id := by
  simp only [due, dueEvents, h, Bool.false_eq_true, if_false]
  split <;> rfl

theorem mem_dueEvents_of_due {s : State} {c : Instr} (h : s.rstnLow = false) (hc : due s = some c) :
    some c ∈ dueEvents s := by
  rw [due_eq h] at hc
  obtain ⟨a, ha, hac⟩ := List.exists_of_findSome?_eq_some hc
  rw [← show a = some c from hac]
  exact ha

theorem notMem_dueEvents_of_due {s : State} (h : s.rstnLow = false) (hn : due s = none) (c : Instr) :
    some c ∉ dueEvents s := by
  rw [due_eq h, List.findSome?_eq_none_iff] at hn
  intro hc
  simpa using hn _ hc

/-! ## The bits of a character -/

/-- A bit of the number that a list of bits spells, least significant first. -/
theorem testBit_foldr_bits (bits : List Bool) (n : Nat) :
    (bits.foldr (fun (b : Bool) m => 2 * m + b.toNat) 0).testBit n = bits.getD n false := by
  induction bits generalizing n with
  | nil => simp
  | cons b rest ih =>
    rw [List.foldr_cons]
    generalize rest.foldr (fun (b : Bool) m => 2 * m + b.toNat) 0 = m at ih
    cases n with
    | zero => cases b <;> simp [Nat.testBit_zero]
    | succ n =>
      have hdiv : (2 * m + b.toNat) / 2 = m := by have := b.toNat_lt; omega
      rw [Nat.testBit_succ, hdiv, ih]
      rfl

/-- The bits of the character taken are those sampled (R101). -/
theorem charValue_bits (bits : List Bool) {n : Nat} (hn : n < 8) :
    (charValue bits).getLsbD n = bits.getD (1 + n) false := by
  rw [charValue, BitVec.getLsbD_ofNat, testBit_foldr_bits]
  simp [hn, List.getD_eq_getElem?_getD, Nat.add_comm]

/-- Parity, by the number of ones (R101). -/
theorem oddOnes_iff (bits : List Bool) : oddOnes bits = true ↔ (bits.filter id).length % 2 = 1 := by
  have h : ∀ (l : List Bool) (a : Bool), l.foldl xor a = true ↔ (a.toNat + (l.filter id).length) % 2 = 1 := by
    intro l
    induction l with
    | nil => intro a; cases a <;> simp
    | cons b rest ih =>
      intro a
      rw [List.foldl_cons, ih]
      cases a <;> cases b <;> simp <;> omega
  simpa [oddOnes] using h bits false

theorem charError_iff (bits : List Bool) : charError bits = true ↔
    (((bits.drop 1).take 9).filter id).length % 2 = 1 ∨ bits.getD 10 false = false := by
  rw [charError, Bool.or_eq_true, oddOnes_iff, Bool.not_eq_true']

/-! ## Durations that run from a part of the state -/

/-- The time for the read of the RESET response has passed (R193). -/
def armWaited (a : ResetArm) (now : Nat) : Bool :=
  match a with
  | .armed t => t + resetWaitTime ≤ now
  | _ => false

theorem armWaited_iff (a : ResetArm) (now : Nat) :
    armWaited a now = true ↔ ∃ t, a = .armed t ∧ t + resetWaitTime ≤ now := by
  cases a <;> simp [armWaited]

/-- The full drive of a valve has lasted its time (R7). -/
def driveOver (v : Valve) (now : Nat) : Bool :=
  match v with
  | .full t => t + fullDriveTime ≤ now
  | _ => false

theorem driveOver_iff (v : Valve) (now : Nat) :
    driveOver v now = true ↔ ∃ t, v = .full t ∧ t + fullDriveTime ≤ now := by
  cases v <;> simp [driveOver]

/-- A phase of a lamp pattern has lasted its time (R6). -/
def phaseOver (p : LampPattern) (since now : Nat) : Bool :=
  match blinkTime p with
  | some h => since + h ≤ now
  | none => false

theorem phaseOver_iff (p : LampPattern) (since now : Nat) : phaseOver p since now = true ↔
    (p = .slow ∧ since + 500 * msec ≤ now) ∨ (p = .fast ∧ since + 125 * msec ≤ now) ∨
      (p = .alternating ∧ since + 1000 * msec ≤ now) := by
  cases p <;> simp [phaseOver, blinkTime]

/-! ## The blocks -/

section blocks

variable {s : State} {c : Instr} {i : LineNo}

theorem mem_portDue : some c ∈ portDue s ↔
    (s.port.preparing.isSome = true ∧ s.port.since + 1000 ≤ s.now ∧ c = .responseReady) ∨
    (s.port.preparing = none ∧ s.port.rdy = false ∧ s.port.since + 1000 ≤ s.now ∧
      c = .portReadyAfterReset) ∨
    ((∃ t, s.port.resetArm = .armed t ∧ t + 50000 ≤ s.now) ∧ c = .resetResponseTimeout) := by
  have e : portDue s = [
      dueIf (s.port.preparing.isSome && decide (s.port.since + readyTime ≤ s.now)) .responseReady,
      dueIf (s.port.preparing.isNone && !s.port.rdy && decide (s.port.since + readyTime ≤ s.now))
        .portReadyAfterReset,
      dueIf (armWaited s.port.resetArm s.now) .resetResponseTimeout] := rfl
  simp only [e, List.mem_cons, List.not_mem_nil, or_false, some_eq_dueIf, Bool.and_eq_true,
    Bool.not_eq_true', Option.isNone_iff_eq_none, decide_eq_true_eq, and_assoc, armWaited_iff]
  rfl

theorem mem_receiverDue : some c ∈ receiverDue s ↔ s.link.rx ≠ .off ∧
    ((∃ since bits, s.link.recv = .busy since bits ∧ bits.length = 11 ∧
        c = .characterTaken (charValue bits) (charError bits)) ∨
      (s.link.recv = .mark ∧ pairLevel s = false ∧ c = .characterStart)) := by
  have hchar : some c = charComplete s ↔ ∃ since bits, s.link.recv = .busy since bits ∧
      bits.length = 11 ∧ c = .characterTaken (charValue bits) (charError bits) := by
    unfold charComplete
    cases s.link.recv with
    | busy since bits => by_cases h : bits.length = 11 <;> simp [h]
    | wait | mark => simp
  by_cases hrx : s.link.rx = .off
  · simp [receiverDue, hrx]
  · rw [receiverDue, if_neg hrx]
    simp only [List.mem_cons, List.not_mem_nil, or_false, hchar, some_eq_dueIf,
      fallingEdge, Bool.and_eq_true, beq_iff_eq, Bool.not_eq_true', ne_eq, hrx, not_false_eq_true,
      true_and, and_assoc]

theorem mem_inputDue : some c ∈ inputDue s i ↔
    ((s.line i).handle.level = false ∧ Reached (s.line i).handle.changed 10000 s ∧
      c = .handlePress i) ∨
    ((s.line i).handle.level = true ∧ Reached (s.line i).handle.changed 10000 s ∧
      c = .handleRelease i) ∨
    ((s.line i).keyA.level = false ∧ Reached (s.line i).keyA.changed 10000 s ∧ c = .keyPress i .a) ∨
    ((s.line i).keyB.level = false ∧ Reached (s.line i).keyB.changed 10000 s ∧ c = .keyPress i .b) ∨
    ((s.line i).meter.high = false ∧ 2 ≤ (s.line i).meter.seen ∧ c = .meterPulse i) := by
  simp only [inputDue, Debounce.due, List.mem_cons, List.not_mem_nil, or_false, some_eq_dueIf,
    Bool.and_eq_true, Bool.not_eq_true', heldFor_iff, decide_eq_true_eq, and_assoc]
  rfl

theorem mem_pinDue : some c ∈ pinDue s ↔ ∃ p, Reached (s.clean.holds.of p) 50000 s ∧
    c = .conditionPinChange p (!s.clean.flags.pin p) := by
  simp only [pinDue, List.mem_map, eq_comm (b := some c), some_eq_dueIf, heldFor_iff]
  constructor
  · rintro ⟨p, -, h⟩
    exact ⟨p, h⟩
  · rintro ⟨p, h⟩
    exact ⟨p, by cases p <;> simp, h⟩

theorem mem_lineDue : some c ∈ lineDue s i ↔
    ((s.line i).state = .afterRun ∧ (s.line i).pour.isSome = true ∧
      Reached (s.line i).afterRunFrom 200000 s ∧ c = .pourCompletion i) ∨
    ((s.line i).state = .pouring ∧ Reached ((s.line i).pour.map PourCtx.noFlowFrom)
      ((s.lineCfg i).noFlow * 50000) s ∧ c = .noFlowExpiry i) ∨
    ((s.line i).state = .pouring ∧ Reached ((s.line i).pour.map PourCtx.openedAt)
      (s.cfg.maxPour * 500000) s ∧ c = .pourTimerExpiry i) ∨
    ((∃ t, (s.line i).valve = .full t ∧ t + 30000 ≤ s.now) ∧ c = .valveHoldDrive i) ∨
    (Reached (s.line i).flashFrom 1000000 s ∧ c = .refuseFlashEnd i) ∨
    ((((s.line i).lamp = .slow ∧ (s.line i).lampFrom + 250000 ≤ s.now) ∨
      ((s.line i).lamp = .fast ∧ (s.line i).lampFrom + 62500 ≤ s.now) ∨
      ((s.line i).lamp = .alternating ∧ (s.line i).lampFrom + 500000 ≤ s.now)) ∧
      c = .lampBlinkPhase i) := by
  have e : lineDue s i = [
      dueIf ((s.line i).state == .afterRun && (s.line i).pour.isSome &&
        ran (s.line i).afterRunFrom afterRunTime s.now) (.pourCompletion i),
      dueIf ((s.line i).state == .pouring && ran ((s.line i).pour.map PourCtx.noFlowFrom)
        ((s.lineCfg i).noFlow * (100 * msec)) s.now) (.noFlowExpiry i),
      dueIf ((s.line i).state == .pouring && ran ((s.line i).pour.map PourCtx.openedAt)
        (s.cfg.maxPour * sec) s.now) (.pourTimerExpiry i),
      dueIf (driveOver (s.line i).valve s.now) (.valveHoldDrive i),
      dueIf (ran (s.line i).flashFrom flashTime s.now) (.refuseFlashEnd i),
      dueIf (phaseOver (s.line i).lamp (s.line i).lampFrom s.now) (.lampBlinkPhase i)] := rfl
  simp only [e, List.mem_cons, List.not_mem_nil, or_false, some_eq_dueIf, Bool.and_eq_true,
    beq_iff_eq, ran_iff, and_assoc, driveOver_iff, phaseOver_iff]
  rfl

theorem mem_startsDue : some c ∈ startsDue s ↔
    ∃ e ∈ s.starts, Reached e.expiry 0 s ∧ c = .keyEntryExpiry e.line := by
  simp only [startsDue, List.mem_map, eq_comm (b := some c), some_eq_dueIf, ran_iff]

theorem mem_coolDue : some c ∈ coolDue s ↔
    (Reached s.secondFrom 500000 s ∧ c = .stationSecondsTick) ∨
    (Reached s.cool.sampleFrom 125000 s ∧ c = .sensorSample (Config.tsnsCode s.now)) ∨
    (s.cool.gly = true ∧ Reached s.cool.frameFrom (s.cool.latched * 5000) s ∧ c = .glycolOnTimeEnd) ∨
    (Reached s.cool.frameFrom 1280000 s ∧ c = .glycolFrameStart) := by
  simp only [coolDue, List.mem_cons, List.not_mem_nil, or_false, some_eq_dueIf, Bool.and_eq_true, ran_iff,
    and_assoc]
  rfl

/-- The idle time of the pair has passed 22 bit-times while characters are awaited (R104). -/
theorem gapOver_iff : gapOver s = true ↔
    (s.link.rx = .discard ∨ ∃ cs, s.link.rx = .assembly cs) ∧ Reached s.link.idleFrom 89 s := by
  have hgap : ∀ f, f + 22 * bitTime < s.now ↔ f + 89 ≤ s.now := by
    intro f
    rw [bitTime]
    omega
  unfold gapOver
  cases s.link.idleFrom with
  | none => simp [Reached]
  | some f =>
    rw [reached_some, ← hgap]
    cases s.link.rx <;> simp

/-- The idle time of the pair has reached the wait of the current frame (R113). -/
theorem waitOver_iff : waitOver s = true ↔ s.link.tx = none ∧ ∃ k ∈ s.link.current,
    (k.kind = .status ∨ s.link.changes ≠ []) ∧
    Reached s.link.idleFrom (4 * accessWait s.cfg.station k.k) s := by
  have hframe : ∀ kind, (attemptFrame kind s).isSome = true ↔ kind = .status ∨ s.link.changes ≠ [] := by
    intro kind
    cases kind <;> cases hc : s.link.changes <;> simp [attemptFrame, hc]
  have hidle : ∀ f w : Nat, (f ≤ s.now ∧ w ≤ idleBits s.now f) ↔ f + 4 * w ≤ s.now := by
    intro f w
    rw [idleBits, elapsed, bitTime]
    omega
  unfold waitOver
  cases s.link.current with
  | none => simp
  | some k =>
    cases s.link.tx with
    | some t => simp
    | none =>
      cases s.link.idleFrom with
      | none => simp [Reached]
      | some f => simp [Reached, hframe, hidle, and_assoc]

theorem mem_linkDue : some c ∈ linkDue s ↔
    ((s.link.rx = .discard ∨ ∃ cs, s.link.rx = .assembly cs) ∧ Reached s.link.idleFrom 89 s ∧
      c = .idleGapExpiry) ∨
    (Reached s.link.announceFrom (s.cfg.announcePeriod * 500) s ∧ c = .announcementTimerExpiry) ∨
    (s.link.mute = false ∧ s.link.tx = none ∧ (∃ k ∈ s.link.current,
      (k.kind = .status ∨ s.link.changes ≠ []) ∧
      Reached s.link.idleFrom (4 * accessWait s.cfg.station k.k) s) ∧ c = .accessWaitExpiry) ∨
    ∃ (n : Fin 32) (p : PeerRec), s.peer n = some p ∧ p.fresh = true ∧ p.lastAt + 1500000 ≤ s.now ∧
      c = .peerExpiry (BitVec.ofNat 8 (n.val + 1)) := by
  have hpeers : (∃ e ∈ s.numberedPeers, e.2.expired s.now = true ∧ c = .peerExpiry (BitVec.ofNat 8 e.1)) ↔
       ∃ (n : Fin 32) (p : PeerRec), s.peer n = some p ∧ p.fresh = true ∧
        p.lastAt + staleTime ≤ s.now ∧ c = .peerExpiry (BitVec.ofNat 8 (n.val + 1)) := by
    simp only [numberedPeers_eq, List.mem_filterMap, List.mem_finRange, true_and, Option.map_eq_some_iff,
      PeerRec.expired, Bool.and_eq_true, decide_eq_true_eq]
    constructor
    · rintro ⟨_, ⟨n, p, hp, rfl⟩, ⟨hf, hl⟩, hc⟩
      exact ⟨n, p, hp, hf, hl, hc⟩
    · rintro ⟨n, p, hp, hf, hl, hc⟩
      exact ⟨_, ⟨n, p, hp, rfl⟩, ⟨hf, hl⟩, hc⟩
  simp only [linkDue, List.mem_append, List.mem_cons, List.not_mem_nil, or_false, List.mem_map,
    eq_comm (b := some c), some_eq_dueIf, hpeers, gapOver_iff, ran_iff, Bool.and_eq_true, Bool.not_eq_true',
    waitOver_iff, and_assoc, or_assoc]
  rfl

theorem mem_cleanDue : some c ∈ cleanDue s ↔ s.clean.runState = .running ∧ ∃ p ∈ s.clean.progress,
    (s.clean.flags.flow = true ∧ Reached s.clean.flowFrom 500000 s ∧ c = .flowTimeout) ∨
    (p.phase = .dwell ∧ p.stepFrom + (s.stepAt p.step).dwell * 500000 ≤ s.now ∧ c = .dwellExpiry) ∨
    (p.phase = .testing ∧ (s.stepAt p.step).limit ≠ 0 ∧
      p.stepFrom + (s.stepAt p.step).limit * 500000 ≤ s.now ∧ c = .limitExpiry) ∨
    (p.runFrom + s.cfg.runLimit * 30000000 ≤ s.now ∧ c = .runLimitExpiry) := by
  by_cases hrun : s.clean.runState = .running
  · cases hp : s.clean.progress with
    | none => simp [cleanDue, hrun, hp]
    | some p =>
      simp only [cleanDue, hrun, hp, List.mem_cons, List.not_mem_nil, or_false, some_eq_dueIf, ran_iff,
        reached_some, Bool.and_eq_true, beq_iff_eq, bne_iff_ne, and_assoc, true_and, Option.mem_def,
        Option.some.injEq, exists_eq_left']
      rfl
  · have e : cleanDue s = [] := by
      unfold cleanDue
      split
      · contradiction
      · rfl
    simp [e, hrun]

end blocks

end Sys2Proof.Machine

/-! SUPPORT. The step on an empty queue (log 1, 2, 22, 27, 35, 37). -/

namespace Sys2Proof.Machine

/-! ## The events that are due, by the durations of their rules -/

section events

variable {s : State} {c : Instr}

theorem mem_inputsDue : some c ∈ inputsDue s ↔
    some c ∈ receiverDue s ∨ (∃ i, some c ∈ inputDue s i) ∨ some c ∈ pinDue s := by
  simp only [inputsDue, List.mem_append, List.mem_flatMap, or_assoc]
  exact or_congr_right (or_congr_left ⟨fun ⟨i, _, h⟩ => ⟨i, h⟩, fun ⟨i, h⟩ => ⟨i, mem_allLines i, h⟩⟩)

theorem mem_dueEvents : some c ∈ dueEvents s ↔
    (s.station ≠ .unconfigured ∧ missingChar s = true ∧ c = .collision) ∨
    some c ∈ inputsDue s ∨ some c ∈ portDue s ∨
    (s.station ≠ .unconfigured ∧ (some c ∈ coolDue s ∨ (∃ i, some c ∈ lineDue s i) ∨
      some c ∈ startsDue s ∨ some c ∈ linkDue s ∨ some c ∈ cleanDue s)) := by
  have hlines : (∃ i ∈ allLines, some c ∈ lineDue s i) ↔ ∃ i, some c ∈ lineDue s i :=
    ⟨fun ⟨i, _, h⟩ => ⟨i, h⟩, fun ⟨i, h⟩ => ⟨i, mem_allLines i, h⟩⟩
  unfold dueEvents
  by_cases hs : s.station = .unconfigured
  · simp [hs]
  · rw [if_neg hs]
    simp only [List.mem_append, List.mem_cons, List.mem_flatMap, some_eq_dueIf, hlines, ne_eq,
      hs, not_false_eq_true, true_and, or_assoc]

/-- A character being sent has not been read back in its time (R114). -/
theorem missingChar_iff : missingChar s = true ↔
    ∃ f ∈ s.link.tx, f.began + 44 * (f.sent + 1) ≤ s.now := by
  unfold missingChar charEnd bitTime
  cases s.link.tx with
  | none => simp
  | some f => simp [Nat.mul_comm]

theorem dueNow_of_inputsDue (hr : s.rstnLow = false) (h : some c ∈ inputsDue s) : DueNow c s := by
  rcases mem_inputsDue.mp h with h | ⟨i, h⟩ | h
  · obtain ⟨hrx, ⟨since, bits, hrecv, hlen, rfl⟩ | ⟨hmark, hspace, rfl⟩⟩ := mem_receiverDue.mp h
    · exact ⟨hr, hrx, since, bits, hrecv, hlen, fun n hn => charValue_bits bits hn, charError_iff bits⟩
    · exact ⟨hr, hrx, hmark, hspace⟩
  · rcases mem_inputDue.mp h with ⟨hl, hd, rfl⟩ | ⟨hl, hd, rfl⟩ | ⟨hl, hd, rfl⟩ | ⟨hl, hd, rfl⟩ |
      ⟨hl, hd, rfl⟩ <;> exact ⟨hr, hl, hd⟩
  · obtain ⟨p, hp, rfl⟩ := mem_pinDue.mp h
    exact ⟨hr, rfl, hp⟩

theorem dueNow_of_portDue (hr : s.rstnLow = false) (h : some c ∈ portDue s) : DueNow c s := by
  rcases mem_portDue.mp h with ⟨hp, hl, rfl⟩ | ⟨hp, hrdy, hl, rfl⟩ | ⟨hw, rfl⟩
  · exact ⟨hr, hp, hl⟩
  · exact ⟨hr, hp, hrdy, hl⟩
  · exact ⟨hr, hw⟩

theorem dueNow_of_lineDue {i : LineNo} (hr : s.rstnLow = false) (hs : s.station ≠ .unconfigured)
    (h : some c ∈ lineDue s i) : DueNow c s := by
  rcases mem_lineDue.mp h with ⟨hst, hp, ht, rfl⟩ | ⟨hst, ht, rfl⟩ | ⟨hst, ht, rfl⟩ | ⟨ht, rfl⟩ |
    ⟨ht, rfl⟩ | ⟨ht, rfl⟩
  · exact ⟨hr, hs, hst, hp, ht⟩
  · exact ⟨hr, hs, hst, ht⟩
  · exact ⟨hr, hs, hst, ht⟩
  all_goals exact ⟨hr, hs, ht⟩

theorem dueNow_of_coolDue (hr : s.rstnLow = false) (hs : s.station ≠ .unconfigured)
    (h : some c ∈ coolDue s) : DueNow c s := by
  rcases mem_coolDue.mp h with ⟨ht, rfl⟩ | ⟨ht, rfl⟩ | ⟨hg, ht, rfl⟩ | ⟨ht, rfl⟩
  · exact ⟨hr, hs, ht⟩
  · exact ⟨hr, hs, rfl, ht⟩
  · exact ⟨hr, hs, hg, ht⟩
  · exact ⟨hr, hs, ht⟩

theorem dueNow_of_linkDue (hr : s.rstnLow = false) (hs : s.station ≠ .unconfigured)
    (h : some c ∈ linkDue s) : DueNow c s := by
  rcases mem_linkDue.mp h with ⟨hrx, ht, rfl⟩ | ⟨ht, rfl⟩ | ⟨hm, htx, hk, rfl⟩ |
    ⟨n, p, hp, hfresh, ht, rfl⟩
  · exact ⟨hr, hs, hrx, ht⟩
  · exact ⟨hr, hs, ht⟩
  · exact ⟨hr, hs, hm, htx, hk⟩
  · refine ⟨hr, hs, n, p, ?_, hp, hfresh, ht⟩
    rw [BitVec.toNat_ofNat]
    omega

theorem dueNow_of_cleanDue (hr : s.rstnLow = false) (hs : s.station ≠ .unconfigured)
    (h : some c ∈ cleanDue s) : DueNow c s := by
  obtain ⟨hrun, p, hp, ⟨hf, ht, rfl⟩ | ⟨hph, ht, rfl⟩ | ⟨hph, hl, ht, rfl⟩ | ⟨ht, rfl⟩⟩ := mem_cleanDue.mp h
  · exact ⟨hr, hs, hrun, Option.isSome_of_mem hp, hf, ht⟩
  · exact ⟨hr, hs, hrun, p, hp, hph, ht⟩
  · exact ⟨hr, hs, hrun, p, hp, hph, hl, ht⟩
  · exact ⟨hr, hs, hrun, p, hp, ht⟩

/-- An event of the list has come due by its rule. -/
theorem dueNow_of_mem (hr : s.rstnLow = false) (h : some c ∈ dueEvents s) : DueNow c s := by
  rcases mem_dueEvents.mp h with ⟨hs, hm, rfl⟩ | h | h | ⟨hs, h | ⟨i, h⟩ | h | h | h⟩
  · exact ⟨hr, hs, missingChar_iff.mp hm⟩
  · exact dueNow_of_inputsDue hr h
  · exact dueNow_of_portDue hr h
  · exact dueNow_of_coolDue hr hs h
  · exact dueNow_of_lineDue hr hs h
  · obtain ⟨e, he, ht, rfl⟩ := mem_startsDue.mp h
    exact ⟨hr, hs, e, he, rfl, ht⟩
  · exact dueNow_of_linkDue hr hs h
  · exact dueNow_of_cleanDue hr hs h

/-- The character taken is what the bits sampled spell (R101). -/
theorem characterTaken_eq {v : Byte} {err : Bool} {bits : List Bool}
    (hv : ∀ n, n < 8 → v.getLsbD n = bits.getD (1 + n) false)
    (herr : err = true ↔ (((bits.drop 1).take 9).filter id).length % 2 = 1 ∨ bits.getD 10 false = false) :
    Instr.characterTaken v err = .characterTaken (charValue bits) (charError bits) := by
  have hval : v = charValue bits :=
    BitVec.eq_of_getLsbD_eq fun n hn => (hv n hn).trans (charValue_bits bits hn).symm
  have hbool : err = charError bits := by rw [Bool.eq_iff_iff, herr, charError_iff]
  rw [hval, hbool]

/-- An event that has come due by its rule is in the list. -/
theorem mem_of_dueNow (h : DueNow c s) : some c ∈ dueEvents s := by
  obtain ⟨hr, h⟩ := h
  have inputs : some c ∈ inputsDue s → some c ∈ dueEvents s := fun h => mem_dueEvents.mpr (.inr (.inl h))
  have receiver : some c ∈ receiverDue s → some c ∈ dueEvents s := fun h =>
    inputs (mem_inputsDue.mpr (.inl h))
  have input : ∀ i, some c ∈ inputDue s i → some c ∈ dueEvents s := fun i h =>
    inputs (mem_inputsDue.mpr (.inr (.inl ⟨i, h⟩)))
  have port : some c ∈ portDue s → some c ∈ dueEvents s := fun h => mem_dueEvents.mpr (.inr (.inr (.inl h)))
  have cool : s.station ≠ .unconfigured → some c ∈ coolDue s → some c ∈ dueEvents s := fun hs h =>
    mem_dueEvents.mpr (.inr (.inr (.inr ⟨hs, .inl h⟩)))
  have line : s.station ≠ .unconfigured → ∀ i, some c ∈ lineDue s i → some c ∈ dueEvents s := fun hs i h =>
    mem_dueEvents.mpr (.inr (.inr (.inr ⟨hs, .inr (.inl ⟨i, h⟩)⟩)))
  have starts : s.station ≠ .unconfigured → some c ∈ startsDue s → some c ∈ dueEvents s := fun hs h =>
    mem_dueEvents.mpr (.inr (.inr (.inr ⟨hs, .inr (.inr (.inl h))⟩)))
  have link : s.station ≠ .unconfigured → some c ∈ linkDue s → some c ∈ dueEvents s := fun hs h =>
    mem_dueEvents.mpr (.inr (.inr (.inr ⟨hs, .inr (.inr (.inr (.inl h)))⟩)))
  have clean : s.station ≠ .unconfigured → some c ∈ cleanDue s → some c ∈ dueEvents s := fun hs h =>
    mem_dueEvents.mpr (.inr (.inr (.inr ⟨hs, .inr (.inr (.inr (.inr h)))⟩)))
  cases c with
  | characterStart =>
    obtain ⟨hrx, hmark, hspace⟩ := h
    exact receiver (mem_receiverDue.mpr ⟨hrx, .inr ⟨hmark, hspace, rfl⟩⟩)
  | characterTaken v err =>
    obtain ⟨hrx, since, bits, hrecv, hlen, hv, herr⟩ := h
    exact receiver (mem_receiverDue.mpr ⟨hrx, .inl ⟨since, bits, hrecv, hlen, characterTaken_eq hv herr⟩⟩)
  | handlePress i => exact input i (mem_inputDue.mpr (.inl ⟨h.1, h.2, rfl⟩))
  | handleRelease i => exact input i (mem_inputDue.mpr (.inr (.inl ⟨h.1, h.2, rfl⟩)))
  | keyPress i k =>
    cases k with
    | a => exact input i (mem_inputDue.mpr (.inr (.inr (.inl ⟨h.1, h.2, rfl⟩))))
    | b => exact input i (mem_inputDue.mpr (.inr (.inr (.inr (.inl ⟨h.1, h.2, rfl⟩)))))
  | meterPulse i => exact input i (mem_inputDue.mpr (.inr (.inr (.inr (.inr ⟨h.1, h.2, rfl⟩)))))
  | conditionPinChange p level =>
    obtain ⟨rfl, hp⟩ := h
    exact inputs (mem_inputsDue.mpr (.inr (.inr (mem_pinDue.mpr ⟨p, hp, rfl⟩))))
  | responseReady => exact port (mem_portDue.mpr (.inl ⟨h.1, h.2, rfl⟩))
  | portReadyAfterReset =>
    obtain ⟨hp, hrdy, hl⟩ := h
    exact port (mem_portDue.mpr (.inr (.inl ⟨hp, hrdy, hl, rfl⟩)))
  | resetResponseTimeout => exact port (mem_portDue.mpr (.inr (.inr ⟨h, rfl⟩)))
  | stationSecondsTick => exact cool h.1 (mem_coolDue.mpr (.inl ⟨h.2, rfl⟩))
  | sensorSample code =>
    obtain ⟨hs, rfl, ht⟩ := h
    exact cool hs (mem_coolDue.mpr (.inr (.inl ⟨ht, rfl⟩)))
  | glycolOnTimeEnd =>
    obtain ⟨hs, hg, ht⟩ := h
    exact cool hs (mem_coolDue.mpr (.inr (.inr (.inl ⟨hg, ht, rfl⟩))))
  | glycolFrameStart => exact cool h.1 (mem_coolDue.mpr (.inr (.inr (.inr ⟨h.2, rfl⟩))))
  | pourCompletion i =>
    obtain ⟨hs, hst, hp, ht⟩ := h
    exact line hs i (mem_lineDue.mpr (.inl ⟨hst, hp, ht, rfl⟩))
  | noFlowExpiry i =>
    obtain ⟨hs, hst, ht⟩ := h
    exact line hs i (mem_lineDue.mpr (.inr (.inl ⟨hst, ht, rfl⟩)))
  | pourTimerExpiry i =>
    obtain ⟨hs, hst, ht⟩ := h
    exact line hs i (mem_lineDue.mpr (.inr (.inr (.inl ⟨hst, ht, rfl⟩))))
  | valveHoldDrive i => exact line h.1 i (mem_lineDue.mpr (.inr (.inr (.inr (.inl ⟨h.2, rfl⟩)))))
  | refuseFlashEnd i => exact line h.1 i (mem_lineDue.mpr (.inr (.inr (.inr (.inr (.inl ⟨h.2, rfl⟩))))))
  | lampBlinkPhase i => exact line h.1 i (mem_lineDue.mpr (.inr (.inr (.inr (.inr (.inr ⟨h.2, rfl⟩))))))
  | keyEntryExpiry i =>
    obtain ⟨hs, e, he, rfl, ht⟩ := h
    exact starts hs (mem_startsDue.mpr ⟨e, he, ht, rfl⟩)
  | collision => exact mem_dueEvents.mpr (.inl ⟨h.1, missingChar_iff.mpr h.2, rfl⟩)
  | idleGapExpiry =>
    obtain ⟨hs, hrx, ht⟩ := h
    exact link hs (mem_linkDue.mpr (.inl ⟨hrx, ht, rfl⟩))
  | announcementTimerExpiry => exact link h.1 (mem_linkDue.mpr (.inr (.inl ⟨h.2, rfl⟩)))
  | accessWaitExpiry =>
    obtain ⟨hs, hm, htx, hk⟩ := h
    exact link hs (mem_linkDue.mpr (.inr (.inr (.inl ⟨hm, htx, hk, rfl⟩))))
  | peerExpiry station =>
    obtain ⟨hs, n, p, hn, hp, hfresh, ht⟩ := h
    have hst : station = BitVec.ofNat 8 (n.val + 1) := by rw [← hn, BitVec.ofNat_toNat, BitVec.setWidth_eq]
    exact link hs (mem_linkDue.mpr (.inr (.inr (.inr ⟨n, p, hp, hfresh, ht, by rw [hst]⟩))))
  | flowTimeout =>
    obtain ⟨hs, hrun, hp, hf, ht⟩ := h
    obtain ⟨p, hp⟩ := Option.isSome_iff_exists.mp hp
    exact clean hs (mem_cleanDue.mpr ⟨hrun, p, hp, .inl ⟨hf, ht, rfl⟩⟩)
  | dwellExpiry =>
    obtain ⟨hs, hrun, p, hp, hph, ht⟩ := h
    exact clean hs (mem_cleanDue.mpr ⟨hrun, p, hp, .inr (.inl ⟨hph, ht, rfl⟩)⟩)
  | limitExpiry =>
    obtain ⟨hs, hrun, p, hp, hph, hl, ht⟩ := h
    exact clean hs (mem_cleanDue.mpr ⟨hrun, p, hp, .inr (.inr (.inl ⟨hph, hl, ht, rfl⟩))⟩)
  | runLimitExpiry =>
    obtain ⟨hs, hrun, p, hp, ht⟩ := h
    exact clean hs (mem_cleanDue.mpr ⟨hrun, p, hp, .inr (.inr (.inr ⟨ht, rfl⟩))⟩)
  | _ => exact h.2.elim

end events

/-! ## A unit of time -/

theorem tick_now (s : State) : (tick s).now = s.now + 1 :=
  watchInputs_only { s with now := s.now + 1 } .now (by simp)

theorem tick_only (s : State) : Only [.now, .lines, .link, .clean] s (tick s) := by
  have h : Only [.now] s { s with now := s.now + 1 } := by
    intro p hp; cases p <;> simp_all [Part.same]
  exact (h.mono (by simp)).trans ((watchInputs_only _).mono (by simp))

/-- While RSTN is held low, time alone passes (R193). -/
theorem tick_reset {s : State} (h : s.rstnLow = true) : tick s = { s with now := s.now + 1 } := by
  simp [tick, watchInputs, h]

/-- The link sees the level of the pair, unless its receiver is off (R101, R121). -/
theorem tick_link {s : State} (h : s.rstnLow = false) : (tick s).link =
    if s.link.rx = .off then s.link
    else { s.link with recv := s.link.recv.watch (pairLevel { s with now := s.now + 1 }) (s.now + 1) } := by
  simp [tick, watchInputs, h]

theorem tick_clean {s : State} (h : s.rstnLow = false) : (tick s).clean =
    { s.clean with holds := s.clean.holds.watch s.clean.flags (s.now + 1) } := by
  simp [tick, watchInputs, h]

theorem tick_line {s : State} (h : s.rstnLow = false) (i : LineNo) :
    (tick s).line i = (s.line i).watch i (s.now + 1) :=
  watchInputs_line { s with now := s.now + 1 } i h

/-- A unit of time passes, and each input sees its pin (R4, R31, R101, R158). -/
theorem tick_unitPasses (s : State) : UnitPasses s (tick s) := by
  refine ⟨tick_now s, tick_only s, ?_⟩
  split
  next hr => exact tick_reset hr
  next hr =>
    rw [Bool.not_eq_true] at hr
    refine ⟨fun i => ⟨_, _, _, ?_, watchKey_seen _ _ _, watchKey_seen _ _ _, sample_seen _ _ _⟩, ?_,
      fun p => ?_, ?_, ?_⟩
    · rw [tick_line hr, ← holdFrom_seen]
      rfl
    · rw [tick_clean hr]
    · rw [tick_clean hr]
      cases p <;> exact holdFrom_seen _ _ _ _
    · rw [tick_link hr]
      split <;> rfl
    · rw [tick_link hr]
      by_cases hrx : s.link.rx = .off
      · rw [if_pos hrx, if_pos hrx]
      · rw [if_neg hrx, if_neg hrx]
        exact receiver_seen _ _ _

/-! ## The step -/

/-- The receiver goes on as the clock takes one of its events (R101). -/
theorem takeDue_eq (c : Instr) (s : State) : takeDue c s = { s with link := { s.link with
    recv := match c with
      | .characterStart => .busy s.now []
      | .characterTaken _ _ => match s.link.recv with
        | .busy _ bits => if bits.getD 10 false = true then .mark else .wait
        | r => r
      | _ => s.link.recv } } := by
  cases c with
  | characterTaken v err =>
    have h : s.link.recv.afterChar = match s.link.recv with
        | .busy _ bits => if bits.getD 10 false = true then .mark else .wait
        | r => r := by
      unfold Receiver.afterChar
      cases s.link.recv <;> rfl
    simp only [takeDue, settleReceiver, modLink, h]
  | _ => rfl

/-- Settles O2: the events of the block's list are those that have come due by their rules, and a tick is
one unit of time seen by each input stage. -/
theorem emptyQueueStep : Obligations.EmptyQueueStep := by
  intro s hq
  have hstep : step s = idleStep s := by simp only [step, hq]
  refine ⟨fun c hc => ?_, fun h => ?_, fun hn => ⟨fun c hc => ?_, tick s, ?_, tick_unitPasses s⟩⟩
  · have hr : s.rstnLow = false := by
      rw [← Bool.not_eq_true]
      intro h
      simp [due_of_reset h] at hc
    refine ⟨dueNow_of_mem hr (mem_dueEvents_of_due hr hc), ?_⟩
    rw [hstep, idleStep, hc]
    exact congrArg (exec c) (takeDue_eq c s)
  · obtain ⟨hr, hs, hm⟩ := h
    simp [due, hr, hs, dueIf, missingChar_iff.mpr hm]
  · exact notMem_dueEvents_of_due hc.1 hn c (mem_of_dueNow hc)
  · rw [hstep, idleStep, hn]

end Sys2Proof.Machine

/-! SUPPORT. The Meter Arithmetic Unit and its statements: the volume of R40 and the pulse target of R44. -/

namespace Sys2Proof.Machine

/-! ## Quarter pulses and the gain factor -/

theorem quarterPulses_mono {b b' : Nat} (oq : Int) (h : b ≤ b') :
    quarterPulses b oq ≤ quarterPulses b' oq := by
  unfold quarterPulses; omega

theorem quarterPulses_succ {b : Nat} {oq : Int} (h : 0 ≤ 4 * (b : Int) + oq) :
    quarterPulses (b + 1) oq = quarterPulses b oq + 4 := by
  unfold quarterPulses; omega

/-- A negative Q is taken as 0 (R40 stage 1). -/
theorem quarterPulses_clamped {b : Nat} {oq : Int} (h : 4 * (b : Int) + oq ≤ 0) :
    quarterPulses b oq = 0 := by
  unfold quarterPulses; omega

theorem quarterPulses_le {b : Nat} {oq : Int} (hoq : oq ≤ 511) (hb : b ≤ 65535) :
    quarterPulses b oq ≤ 262651 := by
  unfold quarterPulses; omega

theorem le_gainFactor {g : Int} (h : -32768 ≤ g) : 32768 ≤ gainFactor g := by
  unfold gainFactor; omega

theorem gainFactor_le {g : Int} (h : g ≤ 32767) : gainFactor g ≤ 98303 := by
  unfold gainFactor; omega

/-! ## The volume of R40 -/

theorem volumeUnits_mono {v v' : Nat} (h : v ≤ v') : volumeUnits v ≤ volumeUnits v' :=
  Nat.div_le_div_right (Nat.add_le_add_right h 50)

/-- Once a beer pulse is counted, V is the exact product rounded half up (R40 stages 2 and 3). -/
theorem volumeMicro_pos {b : Nat} (k : Nat) (g oq : Int) (h : 1 ≤ b) :
    volumeMicro k g oq b = (quarterPulses b oq * gainFactor g * k + 131072) / 262144 :=
  if_neg (Nat.one_le_iff_ne_zero.mp h)

theorem volumeMicro_no_beer (k : Nat) (g oq : Int) : volumeMicro k g oq 0 = 0 := rfl

/-- Without beer pulses (log 36) and with Q clamped to 0 (R41) V is 0. -/
theorem volumeMicro_zero {b : Nat} (k : Nat) (g : Int) {oq : Int} (h : b = 0 ∨ 4 * (b : Int) + oq ≤ 0) :
    volumeMicro k g oq b = 0 := by
  rcases h with rfl | h
  · exact volumeMicro_no_beer k g oq
  · simp [volumeMicro, quarterPulses_clamped h]

theorem volumeMicro_mono {b b' : Nat} (k : Nat) (g oq : Int) (h : b ≤ b') :
    volumeMicro k g oq b ≤ volumeMicro k g oq b' := by
  rcases Nat.eq_zero_or_pos b with rfl | hb
  · rw [volumeMicro_no_beer]; exact Nat.zero_le _
  · rw [volumeMicro_pos k g oq hb, volumeMicro_pos k g oq (hb.trans_le h)]
    have := quarterPulses_mono oq h
    gcongr

/-- V in the bound that the product of R40 gives it. -/
theorem volumeMicro_le {k b n : Nat} {g oq : Int} (h : quarterPulses b oq * gainFactor g * k ≤ n) :
    volumeMicro k g oq b ≤ (n + 131072) / 262144 := by
  rcases Nat.eq_zero_or_pos b with rfl | hb
  · rw [volumeMicro_no_beer]; exact Nat.zero_le _
  · rw [volumeMicro_pos k g oq hb]; gcongr

/-- The largest product of R40, at the extreme coefficients of R39 (R41). -/
theorem volumeProduct_le {k b : Nat} {g oq : Int} (hk : k ≤ 2000) (hg : g ≤ 32767) (hoq : oq ≤ 511)
    (hb : b ≤ 65535) : quarterPulses b oq * gainFactor g * k ≤ 51638762506000 :=
  Nat.mul_le_mul (Nat.mul_le_mul (quarterPulses_le hoq hb) (gainFactor_le hg)) hk

theorem volumeProduct_succ {b : Nat} (k : Nat) (g : Int) {oq : Int} (h : 0 ≤ 4 * (b : Int) + oq) :
    quarterPulses (b + 1) oq * gainFactor g * k =
      quarterPulses b oq * gainFactor g * k + 4 * (gainFactor g * k) := by
  rw [quarterPulses_succ h]; ring

/-- Two roundings half up, to 1 µL and to 0.1 mL, stay less than 0.1 mL from the exact value. -/
theorem volumeUnits_rounded_near (n : Nat) :
    volumeUnits ((n + 131072) / 262144) * 26214400 < n + 26214400 ∧
      n < volumeUnits ((n + 131072) / 262144) * 26214400 + 26214400 := by
  unfold volumeUnits; omega

/-- Settles O51: each bound is that of the product of R40, and the two roundings are monotone. -/
theorem volumeBounds : Obligations.VolumeBounds := by
  refine ⟨fun k b g oq hk hg hg' hoq hb => ?_, by decide, by decide,
    fun k b b' g oq => ⟨fun h => ?_, fun h => ?_, volumeProduct_succ k g, fun h => ?_⟩⟩
  · have hprod := volumeProduct_le hk hg' hoq hb
    have hmicro : volumeMicro k g oq b ≤ 196986246 := volumeMicro_le hprod
    exact ⟨quarterPulses_le hoq hb, le_gainFactor hg, gainFactor_le hg', hprod, by norm_num, hmicro,
      volumeUnits_mono hmicro⟩
  · have hzero := volumeMicro_zero k g h
    exact ⟨hzero, by rw [pourVolume, hzero]; rfl⟩
  · exact volumeUnits_mono (volumeMicro_mono k g oq h)
  · rw [pourVolume, volumeMicro_pos k g oq h]
    exact ⟨rfl, volumeUnits_rounded_near _⟩

/-! ## The pulse target of R44 -/

theorem le_mul_ceilDiv (a : Nat) {b : Nat} (h : 0 < b) : a ≤ b * ceilDiv a b := by
  rw [ceilDiv, ← Nat.ceilDiv_eq_add_pred_div]
  exact le_smul_ceilDiv h

/-- The quarter pulses of the target give at least the target's volume (R44 stage 1). -/
theorem le_targetQuarters {k : Nat} {g : Int} (pt : Nat) (hk : 0 < k) (hg : -32768 ≤ g) :
    pt * 100 * 262144 ≤ k * gainFactor g * targetQuarters k g pt :=
  le_mul_ceilDiv _ (Nat.mul_pos hk (by have := le_gainFactor hg; omega))

/-- A pulse target below the clamp's upper end is at least one pulse, and its pulses reach the quarter
pulses of the target (R44 stage 2). -/
theorem pulseTarget_reached {k pt beer : Nat} {g oq : Int} (hT : pulseTarget k g oq pt < 65535)
    (hb : pulseTarget k g oq pt ≤ beer) : 1 ≤ beer ∧ targetQuarters k g pt ≤ quarterPulses beer oq := by
  unfold pulseTarget clampInt at hT hb
  unfold quarterPulses
  generalize targetQuarters k g pt = q at hT hb ⊢
  constructor <;> omega

/-- Settles O50: the pulses of the target give its quarter pulses, and those its volume. -/
theorem portionReachesTarget : Obligations.PortionReachesTarget := by
  intro k pt beer g oq hk hg _ hT hb
  obtain ⟨hbeer, hq⟩ := pulseTarget_reached hT hb
  have hprod : pt * 100 * 262144 ≤ quarterPulses beer oq * gainFactor g * k := by
    calc pt * 100 * 262144 ≤ k * gainFactor g * targetQuarters k g pt :=
          le_targetQuarters pt (by omega) hg
      _ ≤ k * gainFactor g * quarterPulses beer oq := Nat.mul_le_mul_left _ hq
      _ = quarterPulses beer oq * gainFactor g * k := by ring
  rw [pourVolume, volumeMicro_pos k g oq hbeer, volumeUnits]
  omega

end Sys2Proof.Machine

/-! SUPPORT. CALIBRATE (R47, R48, R49) and its statement. -/

namespace Sys2Proof.Machine

theorem steady_iff (r : EndReason) : r.steady = true ↔ r = .target ∨ r = .release := by
  cases r <;> simp [EndReason.steady]

/-- The working gain of one line is all that CALIBRATE sets (R48, R49). -/
theorem setGain_loaded (i : LineNo) (g : Int) {s : State} {c : Cfg} (h : s.config = some c) :
    setGain i g s = { s with
      config := some { c with lines := c.lines.set i { c.lines[i] with g := g } } } := by
  rw [setGain, h]; rfl

/-- A line without a last-pour record has no gain to calibrate (R47). -/
theorem calibrateBody_notFound {line : Byte} {va : BitVec 32} {s : State} {i : LineNo}
    (hs : s.station ≠ .unconfigured) (hl : configuredLine line s = some i)
    (hva : inRange 1 2000000 va.toNat = true) (hr : (s.line i).lastPour = none) :
    calibrateBody line va s = refuse .notFound s := by
  simp [calibrateBody, hs, hl, hva, hr]

/-- The last tests of R47, on the last-pour record and on the gain that comes of it. -/
theorem calibrateBody_record {line : Byte} {va : BitVec 32} {s : State} {i : LineNo} {r : LastPour}
    (hs : s.station ≠ .unconfigured) (hl : configuredLine line s = some i)
    (hva : inRange 1 2000000 va.toNat = true) (hr : (s.line i).lastPour = some r) :
    calibrateBody line va s =
      if (r.endReason ≠ .target ∧ r.endReason ≠ .release) ∨ r.beer < 200 ∨
          newGain r.v r.g va.toNat < -16384 ∨ 16383 < newGain r.v r.g va.toNat then
        refuse .range s
      else accept (encInt2 (newGain r.v r.g va.toNat)) (setGain i (newGain r.v r.g va.toNat) s) := by
  have htests : (!r.endReason.steady || decide (r.beer < 200) ||
      !inRangeInt (-16384) 16383 (newGain r.v r.g va.toNat)) = true ↔
      (r.endReason ≠ .target ∧ r.endReason ≠ .release) ∨ r.beer < 200 ∨
        newGain r.v r.g va.toNat < -16384 ∨ 16383 < newGain r.v r.g va.toNat := by
    simp [← Bool.not_eq_true, steady_iff, inRangeInt, -not_and, or_assoc]
  simp only [calibrateBody, hs, hl, hva, hr, if_false, Bool.not_true, Bool.false_eq_true, htests]

/-- Settles O20: the tests on the line and on Va, and then those on the last-pour record. -/
theorem calibrateCommand : Obligations.CalibrateCommand := by
  intro line va s h
  refine ⟨fun hs => ?_, fun hs hl => ?_, fun i hs hl => ⟨fun hbad => ?_, fun hc hlo hhi => ?_⟩⟩
  · exact congrArg _ (command_unchanged h (by simp [calibrateBody, hs, refuse]))
  · exact congrArg _ (command_unchanged h
      (by simp [calibrateBody, hs, configuredLine_none hl, refuse]))
  · refine congrArg _ (command_unchanged h ?_)
    cases hc : s.configured i with
    | false => simp [calibrateBody, hs, configuredLine_eq hl, hc, refuse]
    | true =>
      have hva : inRange 1 2000000 va.toNat = false := by
        simp only [hc, Bool.true_eq_false, false_or] at hbad
        simp [inRange]
        omega
      simp [calibrateBody, hs, configuredLine_eq hl, hc, hva, refuse]
  · have hline : configuredLine line (beginCommand s) = some i := by
      simp [configuredLine_eq hl, hc]
    have hva : inRange 1 2000000 va.toNat = true := by simp [inRange, hlo, hhi]
    refine ⟨fun hr => ?_, fun r c hr hcfg => ?_⟩
    · exact congrArg _ (command_unchanged h (calibrateBody_notFound hs hline hva hr))
    · intro n g
      have hbody := calibrateBody_record (s := beginCommand s) hs hline hva hr
      rw [show newGain r.v r.g va.toNat = g from rfl] at hbody
      refine congrArg Host.Outcome.next ?_
      split
      next ht => exact command_unchanged h (by rw [hbody, if_pos ht]; rfl)
      next ht =>
        have hok : calibrateBody line va (beginCommand s) =
            (setGain i g (beginCommand s), .ok, encInt2 g) := by rw [hbody, if_neg ht]; rfl
        rw [setGain_loaded i g (s := beginCommand s) hcfg] at hok
        exact command_of_body h hok rfl rfl

end Sys2Proof.Machine

/-! SUPPORT. A pulse outside a pour (R24, R31, R32, R33) and its statement. -/

namespace Sys2Proof.Machine

/-- The line with a creep pulse counted (R33). -/
def creptLine (l : Line) : Line := { l with creep := satInc max16 l.creep }

section creep

variable {s : State} {i : LineNo}

theorem takePulse_unconfigured (hc : s.configured i = false) : takePulse i s = s := by
  simp [takePulse, hc]

/-- Outside a pour and a cleaning run a pulse is a creep pulse (R32). -/
theorem takePulse_creep (hc : s.configured i = true)
    (hs : (s.line i).state = .off ∨ (s.line i).state = .ready ∨ (s.line i).state = .waiting ∨
      (s.line i).state = .reserved ∨ (s.line i).state = .locked) :
    takePulse i s = creepPulse i s := by
  rcases hs with hs | hs | hs | hs | hs <;> simp [takePulse, hc, hs]

/-- LeakLimit 0 never locks, nor does a count below it (R24, R33). -/
theorem creepPulse_below (h : (s.lineCfg i).leakLimit = 0 ∨
      satInc max16 (s.line i).creep < (s.lineCfg i).leakLimit) :
    creepPulse i s = s.setLine i (creptLine (s.line i)) := by
  have ht : ((s.lineCfg i).leakLimit != 0 &&
      decide ((s.lineCfg i).leakLimit ≤ satInc max16 (s.line i).creep)) = false := by
    simp only [Bool.and_eq_false_iff, bne_eq_false_iff_eq, decide_eq_false_iff_not, Nat.not_le]
    exact h
  simp only [creepPulse, ht, Bool.false_eq_true, if_false]
  rfl

/-- A line that is neither READY nor WAITING takes no LEAK lock (R24). -/
theorem creepPulse_counts (hready : (s.line i).state ≠ .ready)
    (hwaiting : (s.line i).state ≠ .waiting) :
    creepPulse i s = s.setLine i (creptLine (s.line i)) := by
  simp only [creepPulse, creptLine]
  split <;> rfl

section leak

variable (hlimit : (s.lineCfg i).leakLimit ≠ 0)
  (hn : (s.lineCfg i).leakLimit ≤ satInc max16 (s.line i).creep)

include hlimit hn

theorem creepPulse_ready (hs : (s.line i).state = .ready) : creepPulse i s =
    setState i .locked (setLock i .leak (s.setLine i (creptLine (s.line i)))) := by
  simp [creepPulse, hlimit, hn, hs, creptLine]

theorem creepPulse_waiting (hs : (s.line i).state = .waiting) : creepPulse i s =
    refuseEntry i .locked (setLock i .leak (s.setLine i (creptLine (s.line i)))) := by
  simp [creepPulse, hlimit, hn, hs, creptLine]

end leak

end creep

end Sys2Proof.Machine

namespace Sys2Proof

open Machine

/-- Settles O34: a creep pulse is counted, and the LEAK test follows on a READY or WAITING line. -/
theorem creepPulse : Obligations.CreepPulse := by
  intro s i hr l
  obtain ⟨s0, hs0⟩ : ∃ s0, s0 = s.setLine i l := ⟨_, rfl⟩
  have hline : s0.line i = l := by rw [hs0]; exact line_setLine_same s i l
  have hexec : exec (.meterPulse i) s = .next (takePulse i s0) := by
    rw [hs0]; exact exec_meterPulse i hr
  refine ⟨fun hc => ?_, fun hc => ?_⟩
  · rw [hexec, takePulse_unconfigured (by rw [hs0]; exact hc), hs0]
  · intro n limit crept
    have hcrept : s0.setLine i (creptLine (s0.line i)) = crept := by
      rw [hline, hs0, setLine_setLine]; rfl
    have hlimit : (s0.lineCfg i).leakLimit = limit := by rw [hs0]; rfl
    have hn : satInc max16 (s0.line i).creep = n := by rw [hline]; rfl
    have hcreep (hs : l.state = .off ∨ l.state = .ready ∨ l.state = .waiting ∨ l.state = .reserved ∨
        l.state = .locked) : exec (.meterPulse i) s = .next (Machine.creepPulse i s0) := by
      rw [hexec, takePulse_creep (by rw [hs0]; exact hc) (by rw [hline]; exact hs)]
    obtain ⟨hlock, hothers, hattn, honly⟩ := setLock_spec i .leak crept
    replace hothers := (setLine_others s i _).trans hothers
    replace honly := ((setLine_only s i _).mono (by simp)).trans honly
    rw [show crept.line i = { l with creep := n } from line_setLine_same s i _] at hlock
    refine ⟨fun hs => ?_, fun hs hlow => ?_, fun hs h0 hle => ?_, fun hs h0 hle => ?_⟩
    · have hready : (s0.line i).state ≠ .ready := by
        rw [hline]; rcases hs with hs | hs | hs <;> simp [hs]
      have hwaiting : (s0.line i).state ≠ .waiting := by
        rw [hline]; rcases hs with hs | hs | hs <;> simp [hs]
      rw [hcreep (by tauto), creepPulse_counts hready hwaiting, hcrept]
    · rw [hcreep (by tauto), creepPulse_below (by rwa [hlimit, hn]), hcrept]
    · obtain ⟨hset, hothers', honly'⟩ := setState_spec i .locked (setLock i .leak crept)
      rw [hlock] at hset
      refine ⟨_, ?_, hset, hothers.trans hothers', (honly' .attn (by simp)).trans hattn,
        honly.trans (honly'.mono (by simp))⟩
      rw [hcreep (by tauto), creepPulse_ready (by rwa [hlimit]) (by rwa [hlimit, hn])
        (by rw [hline]; exact hs), hcrept]
    · obtain ⟨hset, hothers', hstarts, honly'⟩ := refuseEntry_spec i .locked (setLock i .leak crept)
      rw [hlock] at hset
      refine ⟨_, ?_, hset, hothers.trans hothers', hstarts, (honly' .attn (by simp)).trans hattn,
        (honly.mono (by simp)).trans (honly'.mono (by simp))⟩
      rw [hcreep (by tauto), creepPulse_waiting (by rwa [hlimit]) (by rwa [hlimit, hn])
        (by rw [hline]; exact hs), hcrept]

end Sys2Proof

/-! SUPPORT. ORDER and CANCEL and their statements (R54 to R58). -/

namespace Sys2Proof.Machine

/-! ## The line, the queue and its picture -/

section orderedLine

variable {line : Byte} {s : State} {i : LineNo}

theorem orderedLine_unconfigured (hs : s.station = .unconfigured) :
    orderedLine line s = .error .badState := by
  simp [orderedLine, hs]

theorem orderedLine_badArg (hs : s.station ≠ .unconfigured) (hl : 8 ≤ line.toNat) :
    orderedLine line s = .error .badArg := by
  simp [orderedLine, hs, lineOfByte_none hl]

/-- An unconfigured line and a FREE line hold no queue (R54). -/
theorem orderedLine_badState (hs : s.station ≠ .unconfigured) (hl : line.toNat = i.val)
    (h : s.configured i = false ∨ (s.lineCfg i).mode = .free) :
    orderedLine line s = .error .badState := by
  rcases h with hc | hm
  · simp [orderedLine, hs, lineOfByte_eq hl, hc]
  · simp [orderedLine, hs, lineOfByte_eq hl, ordered_free hm]

theorem orderedLine_ok (hs : s.station ≠ .unconfigured) (hl : line.toNat = i.val)
    (hc : s.configured i = true) (hm : (s.lineCfg i).mode = .ordered) :
    orderedLine line s = .ok i := by
  simp [orderedLine, hs, lineOfByte_eq hl, hc, ordered_ordered hm]

end orderedLine

theorem queued_iff (s : State) (i : LineNo) (tag : BitVec 16) :
    queued s i tag = true ↔ tag ∈ (s.line i).orders.map Order.tag := by
  simp [queued]

/-- The tag that makes a pour's order the one in hand (R53). -/
def PourCtx.tagInHand (p : PourCtx) : Option (BitVec 16) := if p.mode = .order then p.tag else none

theorem inHand_eq (s : State) (i : LineNo) : inHand s i = (s.line i).pour.bind PourCtx.tagInHand := by
  unfold inHand
  cases (s.line i).pour <;> rfl

theorem encOpt_eq {α : Type} (f : α → List Byte) (o : Option α) : encOpt f o = optBytes (o.map f) := by
  cases o <;> rfl

/-- The picture of R58 reads the line alone. -/
theorem queuePicture_eq (s : State) (i : LineNo) (outcome : Option CancelOutcome) :
    queuePicture s i outcome =
      pictureBytes (s.line i) (outcome.map fun o => BitVec.ofNat 8 o.code) := by
  rw [queuePicture, pictureBytes, encOpt_eq, encOpt_eq, Option.map_map, inHand_eq]
  cases (s.line i).pour with
  | none => rfl
  | some p => rw [Option.bind_some, PourCtx.tagInHand, apply_ite (Option.map bytes16)]; rfl

/-! ## ORDER -/

/-- The tests of R54 on the tag, the volume and the queue, and the queue joined at its tail (R55). -/
theorem orderBody_ok {line : Byte} {tag volume : BitVec 16} {s : State} {i : LineNo}
    (h : orderedLine line s = .ok i) : orderBody line tag volume s =
      if tag = 0 ∨ volume.toNat < 100 ∨ 20000 < volume.toNat then refuse .badArg s
      else if tag ∈ (s.line i).orders.map Order.tag ∨ inHand s i = some tag then
        (s, .duplicate, pictureBytes (s.line i) none)
      else if (s.line i).orders.length ≥ 4 then (s, .queueFull, pictureBytes (s.line i) none)
      else
        let t := s.setLine i { s.line i with orders := (s.line i).orders ++ [⟨tag, volume.toNat⟩] }
        (t, .ok, pictureBytes (t.line i) none) := by
  have hrange : (tag = 0 || !inRange 100 20000 volume.toNat) = true ↔
      tag = 0 ∨ volume.toNat < 100 ∨ 20000 < volume.toNat := by
    simp [inRange, ← Bool.not_eq_true, -not_and]
  have htag : (queued s i tag || inHand s i == some tag) = true ↔
      tag ∈ (s.line i).orders.map Order.tag ∨ inHand s i = some tag := by
    rw [Bool.or_eq_true, queued_iff, beq_iff_eq]
  simp only [orderBody, h, hrange, htag, queuePicture_eq, Option.map_none, ge_iff_le]

/-- Settles O16: the tests on the line, and then those on the tag, the volume and the queue. -/
theorem orderCommand : Obligations.OrderCommand := by
  intro line tag volume s h
  have refused : ∀ {st}, orderedLine line (beginCommand s) = .error st →
      exec (.order line tag volume) s = .next (answer st [] s) := fun hl =>
    congrArg _ (command_unchanged h (by simp [orderBody, hl, refuse]))
  refine ⟨fun hs => refused (orderedLine_unconfigured hs),
    fun hs hl => refused (orderedLine_badArg hs hl), fun i hs hl => ?_⟩
  by_cases hc : s.configured i = false ∨ (s.lineCfg i).mode = .free
  · rw [if_pos hc]
    exact refused (orderedLine_badState (s := beginCommand s) hs hl hc)
  · have hmode : s.configured i = true ∧ (s.lineCfg i).mode = .ordered := by
      cases hm : (s.lineCfg i).mode <;> simp_all
    have hbody := orderBody_ok (tag := tag) (volume := volume)
      (orderedLine_ok (s := beginCommand s) hs hl hmode.1 hmode.2)
    rw [if_neg hc]
    refine congrArg Host.Outcome.next ?_
    split
    next ht => exact command_unchanged h (by rw [hbody, if_pos ht]; rfl)
    next ht =>
      rw [if_neg ht] at hbody
      split
      next hd => exact command_unchanged h (hbody.trans (if_pos hd))
      next hd =>
        replace hbody := hbody.trans (if_neg hd)
        split
        next hf => exact command_unchanged h (hbody.trans (if_pos hf))
        next hf => exact command_of_body h (hbody.trans (if_neg hf)) rfl rfl

/-! ## CANCEL -/

section cancel

variable {line : Byte} {tag : BitVec 16} {s : State} {i : LineNo}

/-- An order in the queue leaves it, and those behind keep their order (R56). -/
theorem cancelBody_queued (h : orderedLine line s = .ok i) (ht : tag ≠ 0)
    (hq : tag ∈ (s.line i).orders.map Order.tag) : cancelBody line tag s =
      let t := s.setLine i { s.line i with orders := (s.line i).orders.filter fun o => o.tag != tag }
      (t, .ok, pictureBytes (t.line i) (some 0)) := by
  simp only [cancelBody, h, ht, (queued_iff s i tag).mpr hq, if_false, if_true, queuePicture_eq]
  rfl

/-- The order in hand is cancelled with its pour, or stays as it is once the pour has ended (R57). -/
theorem cancelBody_inHand (h : orderedLine line s = .ok i) (ht : tag ≠ 0)
    (hq : tag ∉ (s.line i).orders.map Order.tag) (hh : inHand s i = some tag) : cancelBody line tag s =
      if (s.line i).state = .pouring then
        (endPour i .cancelled s, .ok, pictureBytes ((endPour i .cancelled s).line i) (some 1))
      else (s, .ok, pictureBytes (s.line i) (some 2)) := by
  simp only [cancelBody, h, ht, (queued_iff s i tag).not.mpr hq, hh, beq_self_eq_true, if_false,
    if_true, queuePicture_eq]
  rfl

theorem cancelBody_notFound (h : orderedLine line s = .ok i) (ht : tag ≠ 0)
    (hq : tag ∉ (s.line i).orders.map Order.tag) (hh : inHand s i ≠ some tag) :
    cancelBody line tag s = (s, .notFound, pictureBytes (s.line i) none) := by
  simp only [cancelBody, h, ht, (queued_iff s i tag).not.mpr hq, beq_iff_eq, hh, if_false,
    queuePicture_eq]
  rfl

/-- A pour that ends keeps its order in hand (R53). -/
theorem inHand_of_pourEnds {reason : EndReason} {p : PourCtx} {t : State}
    (h : PourEnds i reason p s t) (hp : (s.line i).pour = some p) : inHand t i = inHand s i := by
  have hpour : (t.line i).pour = (endedLine s.now reason (s.line i) p).pour :=
    (congrArg Line.pour h.1.1 :)
  rw [inHand_eq, inHand_eq, hpour, hp]
  rfl

end cancel

/-- Settles O17: the tests on the line and the tag, and then where the tag is found. -/
theorem cancelCommand : Obligations.CancelCommand := by
  intro line tag s h
  have refused : ∀ {st}, orderedLine line (beginCommand s) = .error st →
      exec (.cancel line tag) s = .next (answer st [] s) := fun hl =>
    congrArg _ (command_unchanged h (by simp [cancelBody, hl, refuse]))
  refine ⟨fun hs => refused (orderedLine_unconfigured hs),
    fun hs hl => refused (orderedLine_badArg hs hl), fun i hs hl =>
      ⟨fun hc => refused (orderedLine_badState (s := beginCommand s) hs hl hc), fun hc hm => ?_⟩⟩
  have hline : orderedLine line (beginCommand s) = .ok i := orderedLine_ok hs hl hc hm
  refine ⟨fun ht => ?_, fun ht hq => ?_, fun ht hq hh => ⟨fun hp p hpour => ?_, fun hp => ?_⟩,
    fun ht hq hh => ?_⟩
  · exact congrArg _ (command_unchanged h (by simp [cancelBody, hline, ht, refuse]))
  · exact congrArg _ (command_of_body h (cancelBody_queued hline ht hq) rfl rfl)
  · have hends := endPour_spec i .cancelled (beginCommand s) p hpour
    have hinHand := inHand_of_pourEnds hends hpour
    obtain ⟨hline', hother, honly⟩ := hends
    obtain ⟨hex, hfr⟩ := command_of_only h
      ((cancelBody_inHand (s := beginCommand s) hline ht hq hh).trans (if_pos hp)) honly (by simp)
    exact ⟨_, congrArg _ hex, hinHand.trans hh, hline', hother, hfr⟩
  · exact congrArg _ (command_unchanged h
      ((cancelBody_inHand (s := beginCommand s) hline ht hq hh).trans (if_neg hp)))
  · exact congrArg _ (command_unchanged h (cancelBody_notFound (s := beginCommand s) hline ht hq hh))

end Sys2Proof.Machine

/-! SUPPORT. What every operation of the block keeps of the order queues and of the counters (R33, R36, R37,
R53, R81, R105, R157, R177): the relation between the states before and after. -/

namespace Sys2Proof.Machine

/-! ## The invariants, line by line and block by block -/

/-- The orders of a line as R53 gives them. -/
def Line.ordersOk (l : Line) : Prop :=
  l.orders.length ≤ 4 ∧ (l.orders.map Order.tag).Nodup ∧
    ∀ tag ∈ l.pour.bind PourCtx.tagInHand, tag ∉ l.orders.map Order.tag

/-- The counters of a pour inside their widths (R16, R36). -/
def PourCtx.countsOk (p : PourCtx) : Prop := p.total ≤ 65535 ∧ p.foam ≤ p.total ∧ p.creep ≤ 65535

/-- The counters of a line inside their widths (R33, R36, R37). -/
def Line.countsOk (l : Line) : Prop :=
  l.creep ≤ 65535 ∧ l.consecFoam ≤ 255 ∧ ∀ p ∈ l.pour, p.countsOk

/-- The counters of a source inside their widths (R81). -/
def SourceRec.countsOk (r : SourceRec) : Prop := r.own ≤ 4294967295 ∧ r.carry ≤ 4294967295

/-- The counters of the recipe and the claim age inside their widths (R157, R177). -/
def Cleaning.countsOk (c : Cleaning) : Prop :=
  (∀ i : LineNo, c.stepCounts[i] ≤ 65535 ∧ c.beerOut[i] ≤ 65535) ∧ c.age ≤ 255

/-- The counters of the link inside their widths (R105, R116). -/
def Link.countsOk (k : Link) : Prop :=
  k.charErr ≤ 65535 ∧ k.formatErr ≤ 65535 ∧ k.crcErr ≤ 65535 ∧ k.collisions ≤ 65535 ∧ k.drops ≤ 65535

theorem ordersOk_iff (s : State) : OrdersOk s ↔ ∀ i, (s.line i).ordersOk := by
  simp only [OrdersOk, inHand_eq, Line.ordersOk]

theorem widthsOk_iff (s : State) : WidthsOk s ↔ (∀ i, (s.line i).countsOk) ∧
    (∀ x, (s.source x).countsOk) ∧ s.clean.countsOk ∧ s.link.countsOk := by
  simp only [WidthsOk, Line.countsOk, PourCtx.countsOk, SourceRec.countsOk, Cleaning.countsOk,
    Link.countsOk, and_assoc]

/-! ## Counters -/

theorem satInc_le {max n : Nat} (h : n ≤ max) : satInc max n ≤ max := by
  unfold satInc
  split <;> omega

theorem sat_le (max n : Nat) : sat max n ≤ max := Nat.min_le_right n max

/-- A counter of one line counts, saturating, and all stay inside the width. -/
theorem counts_set_satInc {v : Vector Nat 8} (h : ∀ j : LineNo, v[j] ≤ max16) (i j : LineNo) :
    (v.set i (satInc max16 v[i]))[j] ≤ max16 := by
  simp only [Fin.getElem_fin, Vector.getElem_set]
  split
  · exact satInc_le (h i)
  · exact h j

theorem counts_zero (j : LineNo) : (Vector.replicate 8 0 : Vector Nat 8)[j] ≤ 65535 := by
  simp

/-! ## A line kept -/

/-- A pour goes on as another: the order in hand stands, and its counters stay inside their widths. -/
def PourCtx.Continues (p q : PourCtx) : Prop :=
  q.tagInHand = p.tagInHand ∧ (p.countsOk → q.countsOk)

/-- What an operation does to a line keeps its orders and its counters. -/
structure LineKept (l l' : Line) : Prop where
  orders : l.ordersOk → l'.ordersOk
  counts : l.countsOk → l'.countsOk

theorem LineKept.refl (l : Line) : LineKept l l := ⟨id, id⟩

theorem LineKept.trans {l l' l'' : Line} (h : LineKept l l') (h' : LineKept l' l'') : LineKept l l'' :=
  ⟨h'.orders ∘ h.orders, h'.counts ∘ h.counts⟩

/-- The queue stands, and a pour afterwards continues the one before. -/
theorem LineKept.of_pour {l l' : Line} (ho : l'.orders = l.orders)
    (hc : l.creep ≤ 65535 → l'.creep ≤ 65535) (hf : l.consecFoam ≤ 255 → l'.consecFoam ≤ 255)
    (hp : ∀ q ∈ l'.pour, ∃ p ∈ l.pour, p.Continues q) : LineKept l l' := by
  constructor
  · rintro ⟨hlen, hnodup, hhand⟩
    refine ⟨ho ▸ hlen, ho ▸ hnodup, fun tag htag => ?_⟩
    obtain ⟨q, hq, hqt⟩ := Option.mem_bind_iff.mp htag
    obtain ⟨p, hpl, hpq, -⟩ := hp q hq
    rw [ho]
    exact hhand tag (Option.mem_bind_iff.mpr ⟨p, hpl, hpq ▸ hqt⟩)
  · rintro ⟨hcreep, hfoam, hpour⟩
    refine ⟨hc hcreep, hf hfoam, fun q hq => ?_⟩
    obtain ⟨p, hpl, -, hpq⟩ := hp q hq
    exact hpq (hpour p hpl)

theorem LineKept.of_same {l l' : Line} (ho : l'.orders = l.orders) (hc : l'.creep = l.creep)
    (hf : l'.consecFoam = l.consecFoam) (hp : l'.pour = l.pour) : LineKept l l' :=
  .of_pour ho hc.trans_le hf.trans_le fun q hq => ⟨q, hp ▸ hq, rfl, id⟩

/-- Lamps are neither orders nor counters. -/
theorem LineKept.of_sansLamp {l l' : Line} (h : l'.sansLamp = l.sansLamp) : LineKept l l' := by
  have hs : LineKept l.sansLamp l'.sansLamp := h ▸ .refl _
  exact ⟨hs.orders, hs.counts⟩

/-- A pour that ends keeps its order in hand until its completion (R19, R53). -/
theorem lineKept_endedLine (now : Nat) (reason : EndReason) {l : Line} {p : PourCtx}
    (hp : l.pour = some p) : LineKept l (endedLine now reason l p) :=
  .of_pour rfl id id fun q hq => ⟨p, hp, by obtain rfl := Option.some.inj hq; exact ⟨rfl, id⟩⟩

/-! ## A state kept -/

/-- What an operation does to the state keeps the order queues and the counters. -/
structure Keeps (s t : State) : Prop where
  lines : ∀ i, LineKept (s.line i) (t.line i)
  sources : ∀ x, (s.source x).countsOk → (t.source x).countsOk
  clean : s.clean.countsOk → t.clean.countsOk
  link : s.link.countsOk → t.link.countsOk

theorem Keeps.ordersOk {s t : State} (h : Keeps s t) (hs : OrdersOk s) : OrdersOk t :=
  (ordersOk_iff t).mpr fun i => (h.lines i).orders ((ordersOk_iff s).mp hs i)

theorem Keeps.widthsOk {s t : State} (h : Keeps s t) (hs : WidthsOk s) : WidthsOk t := by
  obtain ⟨hlines, hsources, hclean, hlink⟩ := (widthsOk_iff s).mp hs
  exact (widthsOk_iff t).mpr ⟨fun i => (h.lines i).counts (hlines i), fun x => h.sources x (hsources x),
    h.clean hclean, h.link hlink⟩

section keeps

variable {s t u : State} {i : LineNo} {ps : List Part}

theorem Keeps.refl (s : State) : Keeps s s := ⟨fun _ => .refl _, fun _ => id, id, id⟩

theorem Keeps.trans (h : Keeps s t) (h' : Keeps t u) : Keeps s u :=
  ⟨fun i => (h.lines i).trans (h'.lines i), fun x => h'.sources x ∘ h.sources x, h'.clean ∘ h.clean,
    h'.link ∘ h.link⟩

/-- The same, from the last operation backwards. -/
theorem Keeps.after (h' : Keeps t u) (h : Keeps s t) : Keeps s u := h.trans h'

/-- Lines, sources, recipe and link hold every order queue and every counter. -/
theorem Keeps.of_eq (hl : t.lines = s.lines) (hs : t.sources = s.sources) (hc : t.clean = s.clean)
    (hk : t.link = s.link) : Keeps s t :=
  ⟨fun i => line_congr hl i ▸ .refl _, fun x => source_congr hs x ▸ id, hc ▸ id, hk ▸ id⟩

theorem Keeps.of_only (h : Only ps s t)
    (hps : .lines ∉ ps ∧ .sources ∉ ps ∧ .clean ∉ ps ∧ .link ∉ ps) : Keeps s t :=
  .of_eq (h .lines hps.1) (h .sources hps.2.1) (h .clean hps.2.2.1) (h .link hps.2.2.2)

/-- An operation on one line keeps the state when it keeps the line. -/
theorem Keeps.of_line (hl : LineKept (s.line i) (t.line i)) (ho : OtherLines i s t) (h : Only ps s t)
    (hps : .sources ∉ ps ∧ .clean ∉ ps ∧ .link ∉ ps) : Keeps s t := by
  refine ⟨fun j => ?_, fun x => source_congr (h .sources hps.1) x ▸ id,
    (show t.clean = s.clean from h .clean hps.2.1) ▸ id,
    (show t.link = s.link from h .link hps.2.2) ▸ id⟩
  by_cases hj : j = i
  · exact hj ▸ hl
  · exact ho j hj ▸ .refl _

theorem Keeps.of_becomes {l : Line} (hb : LineBecomes t i l) (hl : LineKept (s.line i) l)
    (ho : OtherLines i s t) (h : Only ps s t)
    (hps : .sources ∉ ps ∧ .clean ∉ ps ∧ .link ∉ ps) : Keeps s t :=
  .of_line (hl.trans (.of_sansLamp hb.1)) ho h hps

theorem keeps_setLine {l : Line} (h : LineKept (s.line i) l) : Keeps s (s.setLine i l) :=
  .of_line (by rwa [line_setLine_same]) (setLine_others s i l) (setLine_only s i l) (by simp)

theorem keeps_setSource {x : SourceNo} {r : SourceRec} (h : (s.source x).countsOk → r.countsOk) :
    Keeps s (s.setSource x r) := by
  refine ⟨fun _ => .refl _, fun y => ?_, id, id⟩
  by_cases hy : y = x
  · subst hy; rwa [source_setSource_same]
  · rw [source_setSource_ne s r hy]; exact id

theorem keeps_modClean {f : Cleaning → Cleaning} (h : s.clean.countsOk → (f s.clean).countsOk) :
    Keeps s (modClean f s) :=
  ⟨fun _ => .refl _, fun _ => id, h, id⟩

theorem keeps_modLink {f : Link → Link} (h : s.link.countsOk → (f s.link).countsOk) :
    Keeps s (modLink f s) :=
  ⟨fun _ => .refl _, fun _ => id, id, h⟩

theorem keeps_raise (f : AttnFlag) (s : State) : Keeps s (raise f s) := .of_eq rfl rfl rfl rfl

theorem keeps_overLines {f : LineNo → State → State} (h : ∀ i s, Keeps s (f i s)) (is : List LineNo)
    (s : State) : Keeps s (overLines f is s) := by
  induction is generalizing s with
  | nil => exact .refl s
  | cons i rest ih => exact (h i s).trans (ih _)

/-- One operation on several sources. -/
theorem keeps_foldl {f : State → SourceNo → State} (h : ∀ x s, Keeps s (f s x)) (xs : List SourceNo)
    (s : State) : Keeps s (xs.foldl f s) := by
  induction xs generalizing s with
  | nil => exact .refl s
  | cons x rest ih => exact (h x s).trans (ih _)

/-- An operation that is not made in every state. -/
theorem keeps_ite {c : Prop} [Decidable c] (h : Keeps s t) :
    Keeps s (if c then t else s) := by
  split
  · exact h
  · exact .refl s

theorem keeps_ite_not {c : Prop} [Decidable c] (h : Keeps s t) :
    Keeps s (if c then s else t) := by
  split
  · exact .refl s
  · exact h

theorem keeps_powered {f : State → State} (h : Keeps s (f s)) : Keeps s (powered s f) :=
  keeps_ite_not h

end keeps

end Sys2Proof.Machine

/-! SUPPORT. The shared operations, the arbiter, the Source View, cooling and cleaning keep the order queues
and the counters. -/

namespace Sys2Proof.Machine

/-! ## Lamps, line states and the transmit queue -/

section ops

variable (i : LineNo) (s : State)

theorem keeps_relamp : Keeps s (relamp i s) :=
  .of_line (.of_sansLamp (relamp_line i s).1) (relamp_others i s) (relamp_only i s) (by simp)

theorem keeps_setState (st : LineState) : Keeps s (setState i st s) := by
  obtain ⟨hline, hother, honly⟩ := setState_spec i st s
  exact .of_becomes hline (.of_same rfl rfl rfl rfl) hother honly (by simp)

theorem keeps_refuseFlash : Keeps s (refuseFlash i s) := by
  obtain ⟨hline, hother, honly⟩ := refuseFlash_spec i s
  exact .of_becomes hline (.of_same rfl rfl rfl rfl) hother honly (by simp)

theorem keeps_setLock (r : LockReason) : Keeps s (setLock i r s) :=
  .after (keeps_raise _ _) (keeps_setLine (.of_same rfl rfl rfl rfl))

theorem keeps_clearLock : Keeps s (clearLock i s) := by
  obtain ⟨hline, hother, honly⟩ := clearLock_spec i s
  exact .of_becomes hline (.of_same rfl rfl rfl rfl) hother honly (by simp)

theorem keeps_setValve (v : Valve) : Keeps s (setValve i v s) :=
  keeps_setLine (.of_same rfl rfl rfl rfl)

theorem keeps_removeStart : Keeps s (removeStart i s) := .of_eq rfl rfl rfl rfl

theorem keeps_refuseEntry (st : LineState) : Keeps s (refuseEntry i st s) := by
  obtain ⟨hline, hother, -, honly⟩ := refuseEntry_spec i st s
  exact .of_becomes hline (.of_same rfl rfl rfl rfl) hother honly (by simp)

theorem keeps_endPour (reason : EndReason) : Keeps s (endPour i reason s) := by
  cases hp : (s.line i).pour with
  | none => simp only [endPour, hp]; exact .refl s
  | some p =>
    obtain ⟨hline, hother, honly⟩ := endPour_spec i reason s p hp
    exact .of_becomes hline (lineKept_endedLine _ _ hp) hother honly (by simp)

theorem keeps_endIfPouring (reason : EndReason) : Keeps s (endIfPouring i reason s) :=
  keeps_ite (keeps_endPour i s reason)

/-- The choice of the next frame counts nothing (R110). -/
theorem keeps_selectFrame : Keeps s (selectFrame s) := by
  refine keeps_modLink (f := Link.chooseFrame) fun h => ?_
  unfold Link.chooseFrame
  split
  · exact h
  · split
    · exact h
    · split <;> exact h

theorem keeps_requestStatus : Keeps s (requestStatus s) :=
  keeps_ite_not <| (keeps_modLink (f := fun k => { k with statusReq := true }) id).trans
    (keeps_selectFrame _)

theorem keeps_writeRecord (mk : BitVec 16 → Record) : Keeps s (writeRecord mk s) :=
  .of_only (writeRecord_spec mk s).2.2 (by simp)

/-- A line after reset holds no order and counts nothing (R1, R53). -/
theorem lineKept_reset (l : Line) : LineKept l .reset :=
  ⟨fun _ => ⟨by simp [Line.reset], by simp [Line.reset], by simp [Line.reset]⟩,
    fun _ => ⟨by simp [Line.reset], by simp [Line.reset], by simp [Line.reset]⟩⟩

/-- Every queue and every counter is empty after a reset (R193). -/
theorem keeps_resetAct : Keeps s (resetAct s) := by
  refine ⟨fun i => ?_, fun x _ => ?_, fun _ => ?_, fun _ => ?_⟩
  · rw [show (resetAct s).line i = .reset by simp [resetAct, State.reset, State.line]]
    exact lineKept_reset _
  · rw [show (resetAct s).source x = .reset by simp [resetAct, State.reset, State.source]]
    exact ⟨by simp [SourceRec.reset], by simp [SourceRec.reset]⟩
  · exact ⟨fun j => ⟨counts_zero j, counts_zero j⟩, by simp [resetAct, State.reset, Cleaning.reset]⟩
  · simp [resetAct, State.reset, Link.reset, Link.countsOk]

end ops

/-! ## The Start Arbiter -/

section arbiter

variable (i : LineNo) (s : State)

/-- The pour of an admission takes the head order in hand, and its counters start (R10, R16). -/
theorem newPour_tagInHand (kind : StartKind) : (newPour s i kind).tagInHand =
    if s.ordered i then (s.line i).orders.head?.map Order.tag else none := by
  cases hm : (s.lineCfg i).mode with
  | free => cases kind <;> simp [PourCtx.tagInHand, newPour, pourMode, State.ordered, hm]
  | ordered => simp [PourCtx.tagInHand, newPour, pourMode, State.ordered, hm]

/-- The head order leaves the queue as it comes in hand, and the creep count moves into the context
(R10). -/
theorem lineKept_admission (kind : StartKind) : LineKept (s.line i) { s.line i with
    state := .pouring, pour := some (newPour s i kind), creep := 0, consecFoam := 0,
    intervalFrom := some s.now, valve := .full s.now,
    orders := if s.ordered i then (s.line i).orders.tail else (s.line i).orders } := by
  constructor
  · rintro ⟨hlen, hnodup, -⟩
    simp only [Line.ordersOk, Option.bind_some, newPour_tagInHand]
    split
    · cases ho : (s.line i).orders with
      | nil => simp
      | cons o rest =>
        rw [ho, List.map_cons, List.nodup_cons] at hnodup
        rw [ho, List.length_cons] at hlen
        exact ⟨by simp only [List.tail_cons]; omega, hnodup.2,
          fun tag htag => Option.some.inj htag ▸ hnodup.1⟩
    · exact ⟨hlen, hnodup, by simp⟩
  · rintro ⟨hcreep, -, -⟩
    exact ⟨by simp, by simp, fun q hq => by
      obtain rfl := Option.some.inj hq; exact ⟨by simp [newPour], by simp [newPour], hcreep⟩⟩

theorem keeps_beginPour (kind : StartKind) : Keeps s (beginPour i kind s) := by
  refine Keeps.trans (t := { s with
    journal := { s.journal with reserved := s.journal.reserved + 1 }, pours := s.pours + 1 })
    (.of_eq rfl rfl rfl rfl) (Keeps.trans (keeps_setLine (i := i) ?_) (keeps_relamp i _))
  exact lineKept_admission i s kind

theorem keeps_park (kind : StartKind) (expiry : Option Nat) : Keeps s (park i kind expiry s) :=
  .trans (t := { s with starts := s.starts ++ [⟨i, kind, expiry⟩] }) (.of_eq rfl rfl rfl rfl)
    (keeps_setState i _ .waiting)

theorem keeps_parkOrRefuse (kind : StartKind) : Keeps s (parkOrRefuse i kind s) := by
  unfold parkOrRefuse
  split
  · exact keeps_park i s _ _
  · split
    · exact keeps_refuseFlash i s
    · exact keeps_park i s _ _

theorem keeps_request (kind : StartKind) : Keeps s (request i kind s) := by
  unfold request
  split
  · exact keeps_refuseFlash i s
  · split
    · exact keeps_parkOrRefuse i s kind
    · exact keeps_beginPour i s kind

theorem keeps_serveList (es : List StartEntry) (s : State) : Keeps s (serveList es s) := by
  induction es generalizing s with
  | nil => exact .refl s
  | cons e rest ih =>
    unfold serveList
    split
    · exact (keeps_refuseEntry _ s _).trans (ih _)
    · split
      · exact .refl s
      · exact ((keeps_removeStart _ s).trans (keeps_beginPour _ _ _)).trans (ih _)

theorem keeps_serve : Keeps s (serve s) := keeps_serveList _ s

end arbiter

/-! ## The Source View -/

section sources

variable (x : SourceNo) (s : State)

theorem keeps_lowTest : Keeps s (lowTest x s) := by
  unfold lowTest
  simp only
  split
  · split
    · exact .after (keeps_raise _ _) (keeps_setSource id)
    · exact .refl s
  · exact .refl s

theorem keeps_addOwn (volume : Nat) : Keeps s (addOwn x volume s) :=
  .after (keeps_lowTest x _) (keeps_setSource fun h => ⟨sat_le max32 _, h.2⟩)

theorem keeps_relampSource : Keeps s (relampSource x s) := keeps_overLines keeps_relamp _ s

theorem keeps_refuseSource : Keeps s (refuseSource x s) :=
  keeps_overLines (fun i s => keeps_refuseEntry i s .ready) _ s

theorem keeps_emptyEffects : Keeps s (emptyEffects x s) := by
  unfold emptyEffects
  exact (((keeps_raise _ s).trans (keeps_requestStatus _)).trans (keeps_refuseSource x _)).trans
    (keeps_relampSource x _)

theorem keeps_setEmpty : Keeps s (setEmpty x s) :=
  keeps_ite_not (.after (keeps_emptyEffects x _) (keeps_setSource id))

/-- A foam end that is withdrawn leaves its pour's order in hand (R25). -/
theorem keeps_liftFoam (i : LineNo) : Keeps s (liftFoam i s) := by
  obtain ⟨u, hu⟩ : ∃ u, u = if (s.line i).lock = .foamOut then clearLock i s else s := ⟨_, rfl⟩
  have hsu : Keeps s u ∧ (u.line i).pour = (s.line i).pour := by
    rw [hu]
    split
    · exact ⟨keeps_clearLock i s, (congrArg Line.pour (clearLock_spec i s).1.1 :)⟩
    · exact ⟨.refl s, rfl⟩
  obtain ⟨hkeeps, hpour⟩ := hsu
  simp only [liftFoam, ← hu]
  split
  next p _ hp =>
    split
    · refine hkeeps.trans (keeps_setLine (.of_pour rfl id id fun q hq => ⟨p, hpour.trans hp, ?_⟩))
      obtain rfl := Option.some.inj hq
      exact ⟨rfl, id⟩
    · exact hkeeps
  next => exact hkeeps

theorem keeps_newGeneration (gen : BitVec 8) (full : Nat) (empty : Bool) :
    Keeps s (newGeneration x gen full empty s) :=
  (((keeps_setSource fun _ => ⟨by simp, by simp⟩).trans
    (keeps_overLines (fun i s => keeps_liftFoam s i) _ _)).trans (keeps_relampSource x _)).trans
      (keeps_lowTest x _)

theorem keeps_adopt (gen : BitVec 8) (full : Nat) (empty : Bool) :
    Keeps s (adopt x gen full empty s) := by
  have h := keeps_newGeneration x s gen full empty
  unfold adopt
  simp only
  split
  · exact h.trans (keeps_emptyEffects x _)
  · exact h

theorem keeps_takeChange (b : ChangeBody) : Keeps s (takeChange b s) := by
  unfold takeChange
  split
  · simp only
    split
    · exact keeps_adopt _ s _ _ _
    · exact .after (keeps_lowTest _ _) (keeps_setSource id)
    · exact .refl s
  · exact .refl s

theorem keeps_carryStep (stored new : Option LinkEntry) : Keeps s (carryStep x stored new s) := by
  unfold carryStep
  simp only
  split
  · split
    · exact keeps_setSource fun h => ⟨h.1, sat_le max32 _⟩
    · exact .refl s
  · exact .refl s

theorem keeps_equalStep (new : Option LinkEntry) : Keeps s (equalStep x new s) := by
  unfold equalStep
  simp only
  split
  next e =>
    have hfull : Keeps s (if (s.source x).full = 0 then
        s.setSource x { s.source x with full := e.full.toNat } else s) := by
      split
      · exact keeps_setSource id
      · exact .refl s
    split
    · split
      · exact hfull.trans (keeps_setEmpty x _)
      · exact hfull
    · exact .refl s
  next => exact .refl s

theorem keeps_processSource (stored new : List LinkEntry) : Keeps s (processSource stored new x s) := by
  unfold processSource
  simp only
  split
  · split
    · exact keeps_adopt x s _ _ _
    · exact (keeps_carryStep x s _ _).trans (keeps_equalStep x _ _)
  · exact keeps_carryStep x s _ _

theorem keeps_processEntries (stored new : List LinkEntry) : Keeps s (processEntries stored new s) :=
  keeps_foldl (fun x s => keeps_processSource x s stored new) _ s

theorem keeps_lowTests (stored new : List LinkEntry) : Keeps s (lowTests stored new s) :=
  keeps_foldl keeps_lowTest _ s

end sources

/-! ## Cooling -/

section cooling

variable (s : State)

theorem keeps_regrant : Keeps s (regrant s) := .of_eq rfl rfl rfl rfl

theorem keeps_takeCode (c : BitVec 12) : Keeps s (takeCode c s) := by
  unfold takeCode
  simp only
  split
  · exact .of_eq rfl rfl rfl rfl
  · split <;> exact .of_eq rfl rfl rfl rfl

/-- A list served, or not (R13). -/
theorem keeps_serveIf (b : Bool) : Keeps s (if b then serve s else s) :=
  keeps_ite (keeps_serve s)

theorem keeps_relampAll : Keeps s (relampAll s) := keeps_overLines keeps_relamp _ s

theorem keeps_sample (c : BitVec 12) : Keeps s (sample c s) := by
  have hcode : Keeps s (takeCode c { s with cool := { s.cool with sampleFrom := some s.now } }) :=
    .after (keeps_takeCode _ c) (.of_eq rfl rfl rfl rfl)
  exact .after (keeps_serveIf _ _) (.after (keeps_relampAll _) (.after (keeps_regrant _)
    (hcode.trans (.of_eq rfl rfl rfl rfl))))

theorem keeps_staleRegrant : Keeps s (staleRegrant s) :=
  (keeps_regrant s).trans (keeps_serveIf _ _)

theorem keeps_beginCoolOff : Keeps s (beginCoolOff s) :=
  keeps_ite_not (.after (keeps_serveIf _ _) (.of_eq rfl rfl rfl rfl))

theorem keeps_endCoolOff : Keeps s (endCoolOff s) := .of_eq rfl rfl rfl rfl

theorem keeps_glycolFrame : Keeps s (glycolFrame s) := .of_eq rfl rfl rfl rfl

end cooling

/-! ## Cleaning -/

section cleaning

variable (s : State)

theorem keeps_applyFaucets (on : Bool) : Keeps s (applyFaucets on s) :=
  keeps_overLines (fun i s => keeps_setValve i s _) _ s

theorem keeps_applyOutputs (o : Outputs) : Keeps s (applyOutputs o s) := by
  have h : Keeps s (applyFaucets o.faucets (modClean (fun c => { c with out := o }) s)) :=
    (keeps_modClean id).trans (keeps_applyFaucets _ _)
  unfold applyOutputs
  simp only
  split
  · exact h.trans (keeps_beginCoolOff _)
  · exact h.trans (keeps_endCoolOff _)

/-- Step counts restart at the entry of a step (R162). -/
theorem keeps_enterStep (n runFrom : Nat) : Keeps s (enterStep n runFrom s) :=
  (keeps_modClean fun h => ⟨fun i => ⟨counts_zero i, (h.1 i).2⟩, h.2⟩).trans (keeps_applyOutputs _ _)

theorem keeps_releaseLine (incomplete : Bool) (i : LineNo) : Keeps s (releaseLine incomplete i s) := by
  unfold releaseLine
  simp only
  split
  · exact (keeps_setLock i s _).trans (keeps_setState i _ _)
  · exact .after (keeps_setState i _ _) (keeps_setLine (.of_same rfl rfl rfl rfl))

theorem keeps_writeRunRecord (mk : BitVec 16 → Record) : Keeps s (writeRunRecord mk s) :=
  (keeps_writeRecord s mk).trans (keeps_modClean id)

theorem keeps_wasteLine (j : Job) (i : LineNo) : Keeps s (wasteLine j i s) := by
  unfold wasteLine
  simp only
  split
  · exact .refl s
  · refine ((keeps_writeRunRecord s _).trans (keeps_setLine ?_)).trans (keeps_addOwn _ _ _)
    exact .of_pour rfl (fun _ => by simp) id fun q hq => ⟨q, hq, rfl, id⟩

theorem keeps_writeClean (j : Job) (result : RunResult) (last : Option Nat) :
    Keeps s (writeClean j result last s) := keeps_writeRunRecord s _

theorem keeps_returnSlots : Keeps s (returnSlots s) := by
  have h : Keeps s (modClean (fun c => { c with slots := 0 })
      { s with journal := { s.journal with reserved := s.journal.reserved - s.clean.slots } }) :=
    .after (keeps_modClean id) (.of_eq rfl rfl rfl rfl)
  unfold returnSlots
  simp only
  split
  · exact h.trans (keeps_serve _)
  · exact h

theorem keeps_goIdle : Keeps s (goIdle s) := keeps_modClean fun h => ⟨h.1, by simp⟩

theorem keeps_runOff : Keeps s (runOff s) :=
  ((keeps_modClean id).trans (keeps_applyFaucets _ _)).trans (keeps_endCoolOff _)

theorem keeps_runWritten (result : RunResult) (j : Job) (p : Progress) :
    Keeps s (runWritten result j p s) :=
  ((keeps_runOff s).trans (keeps_overLines (fun i s => keeps_wasteLine s j i) _ _)).trans
    (keeps_writeClean _ j result _)

theorem keeps_runOver : Keeps s (runOver s) :=
  (((keeps_modClean fun h => ⟨fun i => ⟨counts_zero i, counts_zero i⟩, h.2⟩).trans
    (keeps_goIdle _)).trans (keeps_requestStatus _)).trans (keeps_raise _ _)

theorem keeps_endRunning (result : RunResult) : Keeps s (endRunning result s) := by
  cases hjob : s.clean.job with
  | none => simp only [endRunning, hjob]; exact .refl s
  | some j =>
    cases hprog : s.clean.progress with
    | none => simp only [endRunning, hjob, hprog]; exact .refl s
    | some p =>
      rw [endRunning_eq result hjob hprog]
      exact (((keeps_runWritten s result j p).trans (keeps_returnSlots _)).trans
        (keeps_overLines (fun i s => keeps_releaseLine s _ i) _ _)).trans (keeps_runOver _)

theorem keeps_withdrawOrRelease (i : LineNo) : Keeps s (withdrawOrRelease i s) := by
  unfold withdrawOrRelease
  simp only
  split
  · exact keeps_setLine (.of_same rfl rfl rfl rfl)
  · split
    · exact keeps_releaseLine s _ i
    · exact .refl s

theorem keeps_earlyOver (claimed : Bool) : Keeps s (earlyOver claimed s) := by
  unfold earlyOver
  refine .trans ?_ (keeps_raise _ _)
  split
  · exact (keeps_goIdle s).trans (keeps_requestStatus _)
  · exact keeps_goIdle s

theorem keeps_endEarly : Keeps s (endEarly s) := by
  unfold endEarly
  split
  · exact (((keeps_overLines (fun i s => keeps_withdrawOrRelease s i) _ s).trans
      (keeps_writeClean _ _ _ _)).trans (keeps_returnSlots _)).trans (keeps_earlyOver _ _)
  · exact .refl s

theorem keeps_abortRun : Keeps s (abortRun s) := by
  unfold abortRun
  split
  · exact .refl s
  · exact keeps_endEarly s
  · exact keeps_endEarly s
  · exact keeps_endRunning s _

theorem keeps_takeNext (p : Progress) : Keeps s (takeNext p s) := by
  unfold takeNext
  split
  · exact keeps_enterStep s _ _
  · exact keeps_endRunning s _

theorem keeps_takeFaultNext (p : Progress) : Keeps s (takeFaultNext p s) := by
  unfold takeFaultNext
  split
  · exact keeps_enterStep s _ _
  · exact keeps_endRunning s _

theorem keeps_afterFlagChange : Keeps s (afterFlagChange s) := by
  unfold afterFlagChange
  split
  · split
    · exact keeps_takeNext s _
    · exact .refl s
  · exact .refl s

theorem keeps_singleExpiry (p : Progress) : Keeps s (singleExpiry p s) := by
  unfold singleExpiry
  split
  · exact keeps_takeNext s p
  · exact keeps_takeFaultNext s p

theorem keeps_dwellExpires (p : Progress) : Keeps s (dwellExpires p s) := by
  unfold dwellExpires
  simp only
  split
  · exact .refl s
  · split
    · exact keeps_singleExpiry s p
    · split
      · exact keeps_takeNext s p
      · exact keeps_modClean id

theorem keeps_limitExpires (p : Progress) : Keeps s (limitExpires p s) := by
  unfold limitExpires
  simp only
  split
  · exact .refl s
  · split
    · exact keeps_takeFaultNext s p
    · split
      · exact keeps_singleExpiry s p
      · exact .refl s

theorem keeps_stepEvent {f : Progress → State → State} (h : ∀ p, Keeps s (f p s)) :
    Keeps s (stepEvent f s) := by
  unfold stepEvent
  split
  · exact h _
  · exact .refl s

/-- The claim age restarts with the claim (R176). -/
theorem keeps_enterClaiming : Keeps s (enterClaiming s) :=
  (keeps_modClean fun h => ⟨h.1, by simp⟩).trans (keeps_requestStatus _)

theorem keeps_checkPrepared : Keeps s (checkPrepared s) :=
  keeps_ite (keeps_enterClaiming s)

theorem keeps_activate (i : LineNo) : Keeps s (activate i s) :=
  keeps_ite (keeps_setState i s _)

/-- Beer-out counts restart with the run (R171). -/
theorem keeps_enterRunning : Keeps s (enterRunning s) := by
  unfold enterRunning
  split
  · exact ((((keeps_modClean id).trans (keeps_overLines (fun i s => keeps_activate s i) _ _)).trans
      (keeps_requestStatus _)).trans
        (keeps_modClean fun h => ⟨fun i => ⟨(h.1 i).1, counts_zero i⟩, h.2⟩)).trans
          (keeps_enterStep _ _ _)
  · exact .refl s

theorem keeps_evaluateClaim : Keeps s (evaluateClaim s) := by
  unfold evaluateClaim
  simp only
  split
  · split
    · exact (keeps_modClean id).trans (keeps_enterRunning _)
    · exact keeps_modClean id
  · exact .refl s

/-- The claim age counts the successes of own STATUS, saturating (R177). -/
theorem keeps_statusSuccess : Keeps s (statusSuccess s) :=
  keeps_ite (.after (keeps_evaluateClaim _) (keeps_modClean fun h => ⟨h.1, satInc_le h.2⟩))

/-- Step count and beer-out count, saturating (R169). -/
theorem keeps_cleaningPulse (i : LineNo) (p : Progress) : Keeps s (cleaningPulse i p s) := by
  have hstep : ∀ c : Cleaning, c.countsOk →
      { c with stepCounts := c.stepCounts.set i (satInc max16 c.stepCounts[i]) }.countsOk :=
    fun c h => ⟨fun j => ⟨counts_set_satInc (fun k => (h.1 k).1) i j, (h.1 j).2⟩, h.2⟩
  have hbeer : ∀ (b : Bool) (c : Cleaning), c.countsOk →
      { c with beerOut := if b then c.beerOut.set i (satInc max16 c.beerOut[i]) else c.beerOut }.countsOk := by
    intro b c h
    cases b with
    | false => exact h
    | true => exact ⟨fun j => ⟨(h.1 j).1, counts_set_satInc (fun k => (h.1 k).2) i j⟩, h.2⟩
  unfold cleaningPulse
  simp only
  split
  · exact ((keeps_modClean (hstep _)).trans (keeps_modClean (hbeer _ _))).trans
      (keeps_afterFlagChange _)
  · exact (keeps_modClean (hstep _)).trans (keeps_modClean (hbeer _ _))

theorem keeps_takePin (pin : CondPin) (level : Bool) : Keeps s (takePin pin level s) :=
  keeps_modClean id

end cleaning

end Sys2Proof.Machine

/-! SUPPORT. The tower, the cellar link and the terminal port keep the order queues and the counters. -/

namespace Sys2Proof.Machine

/-! ## Pours and pulses -/

section pours

variable (i : LineNo) (s : State)

/-- At 65535 total pulses nothing more is counted, and foam pulses are among the total (R36). -/
theorem countPulse_continues (foam : Bool) (p : PourCtx) : p.Continues (countPulse foam p) := by
  unfold countPulse
  split
  · exact ⟨rfl, id⟩
  next h =>
    refine ⟨rfl, fun ⟨_, hfoam, hcreep⟩ => ⟨?_, ?_, hcreep⟩⟩
    · simp only [max16] at h ⊢; omega
    · cases foam <;> simp only [if_true, Bool.false_eq_true, if_false] <;> omega

theorem foamRunAfter_le {foam : Bool} {p : PourCtx} {n : Nat} (h : n ≤ max8) :
    foamRunAfter foam p n ≤ max8 := by
  unfold foamRunAfter
  split
  · exact h
  · split
    · exact satInc_le h
    · exact Nat.zero_le _

theorem keeps_pourPulse {p : PourCtx} (hp : (s.line i).pour = some p) :
    Keeps s (pourPulse i p s) := by
  have hpulsed : ∀ q, p.Continues q → Keeps s (s.setLine i (pulsedLine s i p q)) := fun q hq =>
    keeps_setLine (.of_pour rfl id foamRunAfter_le fun r hr => ⟨p, hp, Option.some.inj hr ▸ hq⟩)
  by_cases hs : (s.line i).state = .pouring
  · rw [pourPulse_pouring hs rfl]
    have h := hpulsed { countPulse (pulseFoam s i p) p with noFlowFrom := s.now }
      (countPulse_continues _ p)
    split
    · exact (h.trans (keeps_endPour i _ _)).trans (keeps_setEmpty _ _)
    · exact h.trans (keeps_endPour i _ _)
    · exact h
  · have e : pourPulse i p s = s.setLine i (pulsedLine s i p (countPulse (pulseFoam s i p) p)) := by
      simp [pourPulse, hs, pulsedLine, pulseRun, pulseFoam]
    exact e ▸ hpulsed _ (countPulse_continues _ p)

theorem keeps_creepPulse : Keeps s (creepPulse i s) := by
  have hcrept : Keeps s (s.setLine i (creptLine (s.line i))) :=
    keeps_setLine (.of_pour rfl satInc_le id fun q hq => ⟨q, hq, rfl, id⟩)
  by_cases hready : (s.line i).state = .ready ∨ (s.line i).state = .waiting
  · unfold creepPulse
    simp only
    split
    · split
      · exact .after (keeps_setState i _ _) (.after (keeps_setLock i _ _) hcrept)
      · exact .after (keeps_refuseEntry i _ _) (.after (keeps_setLock i _ _) hcrept)
      · exact hcrept
    · exact hcrept
  · obtain ⟨hr, hw⟩ := not_or.mp hready
    exact creepPulse_counts hr hw ▸ hcrept

theorem keeps_takePulse : Keeps s (takePulse i s) := by
  unfold takePulse
  simp only
  split
  · exact .refl s
  · split
    · split
      next hp => exact keeps_pourPulse i s hp
      next => exact .refl s
    · split
      next hp => exact keeps_pourPulse i s hp
      next => exact .refl s
    · exact keeps_stepEvent s fun p => keeps_cleaningPulse s i p
    · exact keeps_creepPulse i s

theorem keeps_afterCompletion (p : PourCtx) : Keeps s (afterCompletion i p s) := by
  obtain ⟨hline, hother, -, honly⟩ := settleLine_spec i p s
  have h : Keeps s (settleLine i p s) :=
    .of_becomes hline (.of_same rfl rfl rfl rfl) hother honly (by simp)
  rw [afterCompletion_eq]
  split
  · exact h.trans (keeps_checkPrepared _)
  · exact h

theorem keeps_presentRemembered : Keeps s (presentRemembered i s) := by
  unfold presentRemembered
  simp only
  split
  · exact .after (keeps_request i _ _) (keeps_setLine (.of_same rfl rfl rfl rfl))
  · exact .refl s

/-- A completed pour is no longer in hand (R22, R53). -/
theorem lineKept_completed (l : Line) (r : LastPour) : LineKept l { l with
    pour := none, lastPour := some r, consecFoam := 0, intervalFrom := none, afterRunFrom := none } :=
  .of_pour rfl id (fun _ => by simp) (by simp)

theorem keeps_complete (p : PourCtx) : Keeps s (complete i p s) := by
  have hwritten : ∀ mk x v, Keeps s (addOwn x v (writeRecord mk s)) := fun mk x v =>
    (keeps_writeRecord s mk).trans (keeps_addOwn x _ v)
  have hpours : ∀ u : State, Keeps u { u with pours := u.pours - 1 } := fun u => .of_eq rfl rfl rfl rfl
  unfold complete
  exact .after (keeps_presentRemembered i _) (.after (keeps_serve _) (.after
    (keeps_afterCompletion i _ p) (.after (hpours _)
      (.after (keeps_setLine (lineKept_completed _ _)) (hwritten _ _ _)))))

end pours

/-! ## Handles and keys -/

section tower

variable (i : LineNo) (s : State)

theorem keeps_takeHandle (closed : Bool) : Keeps s (takeHandle i closed s) :=
  keeps_setLine (.of_same rfl rfl rfl rfl)

theorem keeps_takeKey (k : Key) : Keeps s (takeKey i k s) :=
  keeps_setLine (by cases k <;> exact .of_same rfl rfl rfl rfl)

theorem keeps_takeMeter : Keeps s (takeMeter i s) := keeps_setLine (.of_same rfl rfl rfl rfl)

theorem keeps_pressHandle : Keeps s (pressHandle i s) := by
  unfold pressHandle
  split
  · exact .refl s
  · split
    case h_5 => exact keeps_request i s .handle
    case h_1 | h_2 | h_3 | h_4 => exact keeps_refuseFlash i s
    all_goals exact .refl s

theorem keeps_releaseHandle : Keeps s (releaseHandle i s) := by
  unfold releaseHandle
  split
  · exact .refl s
  · split
    · split
      · exact (keeps_removeStart i s).trans (keeps_setState i _ _)
      · exact .refl s
    · split
      · exact keeps_endPour i s _
      · exact .refl s
    · exact .refl s

theorem keeps_pressKey (k : Key) : Keeps s (pressKey i k s) := by
  unfold pressKey
  split
  case h_5 => exact keeps_request i s _
  case h_6 =>
    split
    · exact keeps_setLine (.of_same rfl rfl rfl rfl)
    · exact .refl s
  case h_1 | h_2 | h_3 | h_4 => exact keeps_refuseFlash i s
  all_goals exact .refl s

end tower

/-! ## The cellar link -/

section link

variable (s : State)

theorem keeps_setPeer (n : Fin 32) (p : Option PeerRec) : Keeps s (s.setPeer n p) :=
  .of_eq rfl rfl rfl rfl

theorem keeps_applyStatus (n : Fin 32) (b : StatusBody) : Keeps s (applyStatus n b s) :=
  .after (keeps_evaluateClaim _) (.after (keeps_lowTests _ _ _) (.after (keeps_setPeer _ _ _)
    (keeps_processEntries s _ _)))

/-- The CHANGE frames flushed are counted as drops, saturating (R118). -/
theorem keeps_duplicateStation : Keeps s (duplicateStation s) := by
  have hdrop : Keeps s (modLink (fun k => { k with
      mute := true, statusReq := false, changes := [], current := none,
      drops := sat max16 (k.drops + k.changes.length) }) s) :=
    keeps_modLink fun ⟨hchar, hformat, hcrc, hcol, _⟩ => ⟨hchar, hformat, hcrc, hcol, sat_le max16 _⟩
  unfold duplicateStation
  refine .after (keeps_raise _ _) ?_
  split
  · exact .refl s
  · simp only
    split
    · exact hdrop
    · exact hdrop.trans (keeps_raise _ _)

theorem keeps_handFrame (f : LinkFrame) : Keeps s (handFrame f s) := by
  unfold handFrame
  split
  · exact keeps_duplicateStation s
  · split
    · exact keeps_takeChange s _
    · split
      · exact keeps_applyStatus s _ _
      · exact .refl s

/-- One counter rises, saturating (R105). -/
theorem countCheck_countsOk (c : RxCheck) {k : Link} (h : k.countsOk) : (countCheck c k).countsOk := by
  obtain ⟨hchar, hformat, hcrc, hcol, hdrop⟩ := h
  unfold countCheck
  split
  · exact ⟨satInc_le hchar, hformat, hcrc, hcol, hdrop⟩
  · exact ⟨hchar, hformat, satInc_le hcrc, hcol, hdrop⟩
  · exact ⟨hchar, satInc_le hformat, hcrc, hcol, hdrop⟩

theorem keeps_discardFrame (c : RxCheck) : Keeps s (discardFrame c s) :=
  keeps_modLink fun h => countCheck_countsOk c h

theorem keeps_arriveFrame (f : LinkFrame) : Keeps s (arriveFrame f s) := by
  unfold arriveFrame
  split
  · exact .after (keeps_handFrame _ f) (keeps_modLink id)
  · exact keeps_discardFrame s _

theorem keeps_startAttempt : Keeps s (startAttempt s) := by
  unfold startAttempt
  split
  · split
    · exact keeps_modLink id
    · exact .refl s
  · exact .refl s

theorem leaveList_countsOk (kind : CurrentKind) {k : Link} (h : k.countsOk) :
    (leaveList kind k).countsOk := by
  unfold leaveList
  split <;> exact h

theorem keeps_dropFrame (kind : CurrentKind) : Keeps s (dropFrame kind s) := by
  have hdrop : Keeps s (modLink (fun k => { leaveList kind k with
      current := none, drops := satInc max16 k.drops }) s) := by
    refine keeps_modLink fun h => ?_
    obtain ⟨hchar, hformat, hcrc, hcol, -⟩ := leaveList_countsOk kind h
    exact ⟨hchar, hformat, hcrc, hcol, satInc_le h.2.2.2.2⟩
  unfold dropFrame
  refine .after (keeps_selectFrame _) ?_
  split
  · exact hdrop.trans (keeps_raise _ _)
  · exact hdrop

theorem keeps_collide : Keeps s (collide s) := by
  unfold collide
  split
  next t c _ _ =>
    have hcollision : Keeps s (modLink (fun k => { release t (t.sent + 1) k with
        collisions := satInc max16 k.collisions }) s) :=
      keeps_modLink fun ⟨hchar, hformat, hcrc, hcol, hdrop⟩ =>
        ⟨hchar, hformat, hcrc, satInc_le hcol, hdrop⟩
    simp only
    split
    · exact hcollision.trans (keeps_dropFrame _ _)
    · exact .after (keeps_modLink id) hcollision
  next => exact .refl s

theorem keeps_succeed : Keeps s (succeed s) := by
  unfold succeed
  split
  next t c _ _ =>
    have hleft : Keeps s (modLink (fun k => { leaveList c.kind (release t t.chars.length k) with
        current := none }) s) :=
      keeps_modLink fun h => leaveList_countsOk c.kind (k := release t t.chars.length s.link) h
    refine .after (keeps_selectFrame _) ?_
    split
    · exact hleft.trans (keeps_statusSuccess _)
    · exact hleft
  next => exact .refl s

theorem keeps_readBack (t : TxFrame) (v : Byte) (err : Bool) : Keeps s (readBack t v err s) := by
  unfold readBack
  split
  · exact keeps_collide s
  · split
    · exact keeps_succeed s
    · exact keeps_modLink id

theorem keeps_takeChar (v : Byte) (err : Bool) : Keeps s (takeChar v err s) := by
  unfold takeChar
  split
  · exact .refl s
  · exact .refl s
  · split
    · exact keeps_discardFrame s _
    · split
      · exact keeps_modLink id
      · exact keeps_discardFrame s _
  · split
    · exact keeps_modLink id
    · exact keeps_discardFrame s _
    · exact keeps_arriveFrame s _
  · split
    · exact keeps_readBack s _ v err
    · exact .refl s

end link

/-! ## The terminal port -/

section port

variable {s : State}

theorem keeps_command {body : State → State × Answer} (h : ∀ s, Keeps s (body s).1) :
    Keeps s (command body s) := by
  refine keeps_powered ?_
  simp only
  split
  · exact .of_eq rfl rfl rfl rfl
  · split
    · exact keeps_resetAct s
    · have hbegin : Keeps s (beginCommand s) := .of_eq rfl rfl rfl rfl
      exact (hbegin.trans (h _)).trans (.of_eq rfl rfl rfl rfl)

theorem keeps_readOut (n : Nat) : Keeps s (readOut n s) := by
  have hport : ∀ (u : State) (p : Port), Keeps u { u with port := p } := fun _ _ => .of_eq rfl rfl rfl rfl
  unfold readOut
  refine .after (hport _ _) ?_
  split
  · exact keeps_resetAct s
  · exact hport s _

end port

end Sys2Proof.Machine

/-! SUPPORT. Every command and event keeps the order queues and the counters, and the statement. -/

namespace Sys2Proof.Machine

/-! ## The commands of the station -/

section station

variable (s : State)

theorem keeps_acceptImage (img : List Byte) : Keeps s (acceptImage img s) := by
  have hloaded : Keeps s { s with
      config := some (loadCfg img), station := .stopped, seconds := 0, secondFrom := some s.now } :=
    .of_eq rfl rfl rfl rfl
  have hsample : ∀ u : State, Keeps u { u with cool := { u.cool with sampleFrom := some s.now } } :=
    fun _ => .of_eq rfl rfl rfl rfl
  exact .after (keeps_glycolFrame _) (.after (hsample _) (.after (keeps_requestStatus _)
    (.after (keeps_modLink id) hloaded)))

theorem keeps_configureBody (img : List Byte) : Keeps s (configureBody img s).1 := by
  unfold configureBody
  split
  · exact .refl s
  · split
    · exact .refl s
    · exact keeps_acceptImage s img

theorem keeps_startLine (i : LineNo) : Keeps s (startLine i s) := by
  have h : Keeps s (s.setLine i { s.line i with lastPour := none }) :=
    keeps_setLine (.of_same rfl rfl rfl rfl)
  unfold startLine
  simp only
  split
  · exact h.trans (keeps_setState i _ _)
  · exact h

theorem keeps_startBody : Keeps s (startBody s).1 := by
  have hrunning : Keeps s { s with station := .running } := .of_eq rfl rfl rfl rfl
  unfold startBody
  split
  · exact .refl s
  · exact (hrunning.trans (keeps_overLines (fun i s => keeps_startLine s i) _ _)).trans
      (keeps_requestStatus _)

theorem keeps_stopLine (i : LineNo) : Keeps s (stopLine i s) := by
  obtain ⟨hline, hother, honly⟩ := stopLine_spec i s
  have hoff : LineKept (s.line i) (offLine (s.line i)) := .of_same rfl rfl rfl rfl
  exact .of_line (hoff.trans (.of_sansLamp hline)) hother honly (by simp)

theorem keeps_closeTower : Keeps s (closeTower s) := by
  have hstopped : Keeps s { s with station := .stopped } := .of_eq rfl rfl rfl rfl
  exact (hstopped.trans (keeps_overLines (fun i s => keeps_refuseEntry i s .off) _ _)).trans
    (keeps_overLines (fun i s => keeps_endIfPouring i s .stopped) _ _)

theorem keeps_leaveRunning : Keeps s (leaveRunning s) := by
  rw [show leaveRunning s = overLines stopLine allLines (abortRun (closeTower s)) from rfl]
  exact ((keeps_closeTower s).trans (keeps_abortRun _)).trans
    (keeps_overLines (fun i s => keeps_stopLine s i) _ _)

theorem keeps_stopBody : Keeps s (stopBody s).1 := by
  unfold stopBody
  split
  · exact .refl s
  · simp only [accept]
    exact (keeps_leaveRunning s).trans (keeps_requestStatus _)

theorem keeps_resetBody : Keeps s (resetBody s).1 := .of_eq rfl rfl rfl rfl

theorem keeps_readStatusBody : Keeps s (readStatusBody s).1 := .refl s

theorem keeps_readLineBody (line : Byte) : Keeps s (readLineBody line s).1 := by
  unfold readLineBody
  split
  · exact .refl s
  · split <;> exact .refl s

theorem keeps_readSourceBody (source : Byte) : Keeps s (readSourceBody source s).1 := by
  unfold readSourceBody
  split
  · exact .refl s
  · split <;> exact .refl s

theorem keeps_readPeerBody (station : Byte) : Keeps s (readPeerBody station s).1 := by
  unfold readPeerBody
  split
  · exact .refl s
  · split
    · exact .refl s
    · split <;> exact .refl s

/-- The counters of the link are cleared once they are read (R120). -/
theorem keeps_readLinkBody : Keeps s (readLinkBody s).1 := by
  unfold readLinkBody
  split
  · exact .refl s
  · simp only [accept]
    exact keeps_modLink fun _ => ⟨by simp, by simp, by simp, by simp, by simp⟩

theorem keeps_readAttentionBody : Keeps s (readAttentionBody s).1 := .of_eq rfl rfl rfl rfl

end station

/-! ## The commands of the four jobs -/

section jobs

variable (s : State)

theorem keeps_takeRecordBody : Keeps s (takeRecordBody s).1 := by
  have htaken : ∀ rest, Keeps s { s with journal := { s.journal with records := rest } } :=
    fun _ => .of_eq rfl rfl rfl rfl
  unfold takeRecordBody
  split
  · exact .refl s
  · split
    · exact .refl s
    · exact (htaken _).trans (keeps_serve _)

/-- An order whose tag is new joins a queue that is not full (R53, R55). -/
theorem lineKept_ordered {l : Line} {o : Order} (hq : o.tag ∉ l.orders.map Order.tag)
    (hh : l.pour.bind PourCtx.tagInHand ≠ some o.tag) (hlen : l.orders.length < 4) :
    LineKept l { l with orders := l.orders ++ [o] } := by
  refine ⟨fun ⟨_, hnodup, hhand⟩ => ⟨?_, ?_, fun tag htag => ?_⟩, id⟩
  · simpa using hlen
  · simpa [List.nodup_append] using ⟨hnodup, by simpa using hq⟩
  · have hne : tag ≠ o.tag := fun e => hh (e ▸ htag)
    have hnot := hhand tag htag
    simp only [List.map_append, List.map_singleton, List.mem_append, List.mem_singleton, not_or]
    exact ⟨hnot, hne⟩

theorem keeps_orderBody (line : Byte) (tag volume : BitVec 16) :
    Keeps s (orderBody line tag volume s).1 := by
  cases hl : orderedLine line s with
  | error st => simp only [orderBody, hl]; exact .refl s
  | ok i =>
    rw [orderBody_ok hl]
    split
    · exact .refl s
    · split
      · exact .refl s
      next htag =>
        obtain ⟨hq, hh⟩ := not_or.mp htag
        split
        · exact .refl s
        next hlen => exact keeps_setLine (lineKept_ordered hq (inHand_eq s i ▸ hh) (not_le.mp hlen))

/-- A queue that loses orders keeps R53. -/
theorem lineKept_filtered (l : Line) (f : Order → Bool) :
    LineKept l { l with orders := l.orders.filter f } := by
  refine ⟨fun ⟨hlen, hnodup, hhand⟩ => ?_, id⟩
  have hsub : ((l.orders.filter f).map Order.tag).Sublist (l.orders.map Order.tag) :=
    List.filter_sublist.map _
  exact ⟨(List.length_filter_le _ _).trans hlen, hnodup.sublist hsub,
    fun tag htag hmem => hhand tag htag (hsub.subset hmem)⟩

theorem keeps_cancelBody (line : Byte) (tag : BitVec 16) : Keeps s (cancelBody line tag s).1 := by
  unfold cancelBody
  split
  · exact .refl s
  · split
    · exact .refl s
    · split
      · exact keeps_setLine (lineKept_filtered _ _)
      · split
        · split
          · exact keeps_endPour _ s _
          · exact .refl s
        · exact .refl s

theorem keeps_pourStopBody (line : Byte) : Keeps s (pourStopBody line s).1 := by
  unfold pourStopBody
  split
  · exact .refl s
  · split
    · exact .refl s
    · split
      · exact keeps_endPour _ s _
      · exact keeps_refuseEntry _ s _
      · exact keeps_setLine (.of_same rfl rfl rfl rfl)
      · exact .refl s

theorem keeps_unlockBody (line : Byte) : Keeps s (unlockBody line s).1 := by
  unfold unlockBody
  split
  · exact .refl s
  · split
    · exact .refl s
    · split
      · exact .refl s
      · exact keeps_clearLock _ s

theorem keeps_calibrateBody (line : Byte) (va : BitVec 32) : Keeps s (calibrateBody line va s).1 := by
  unfold calibrateBody
  split
  · exact .refl s
  · split
    · exact .refl s
    · split
      · exact .refl s
      · split
        · exact .refl s
        · simp only
          split
          · exact .refl s
          · exact .of_eq rfl rfl rfl rfl

theorem keeps_sourceChangeBody (source : Byte) (full : BitVec 32) :
    Keeps s (sourceChangeBody source full s).1 := by
  unfold sourceChangeBody
  split
  · exact .refl s
  · split
    · exact .refl s
    · split
      · exact .refl s
      · split
        · exact .refl s
        · exact .after (keeps_selectFrame _) (.after (keeps_modLink id) (keeps_newGeneration _ s _ _ _))

theorem keeps_clearMuteBody : Keeps s (clearMuteBody s).1 := by
  unfold clearMuteBody
  split
  · exact .refl s
  · exact .after (keeps_requestStatus _) (keeps_modLink id)

theorem keeps_reserveLine (i : LineNo) : Keeps s (reserveLine i s) := by
  unfold reserveLine
  split
  · exact keeps_setState i s _
  · exact keeps_refuseEntry i s _
  · exact .after (keeps_setState i _ _) (keeps_setLine (.of_same rfl rfl rfl rfl))
  · exact keeps_setLine (.of_same rfl rfl rfl rfl)
  · exact keeps_setLine (.of_same rfl rfl rfl rfl)
  · exact .refl s

theorem keeps_acceptRun (entry : Nat) (lines : Byte) : Keeps s (acceptRun entry lines s) := by
  have hreserved : ∀ n, Keeps s { s with journal := { s.journal with reserved := n } } :=
    fun _ => .of_eq rfl rfl rfl rfl
  exact .after (keeps_checkPrepared _) (.after (keeps_modClean id) (.after
    (keeps_overLines (fun i s => keeps_reserveLine s i) _ _) (.after (keeps_modClean id) (hreserved _))))

theorem keeps_cleanStartBody (entry lines : Byte) : Keeps s (cleanStartBody entry lines s).1 := by
  unfold cleanStartBody
  split
  · exact .refl s
  · split
    · exact .refl s
    · split
      · exact .refl s
      · split
        · exact .refl s
        · split
          · exact .refl s
          · exact keeps_acceptRun s _ _

theorem keeps_cleanAbortBody : Keeps s (cleanAbortBody s).1 := by
  unfold cleanAbortBody
  split
  · exact .refl s
  · exact keeps_abortRun s

end jobs

/-! ## Every command and event -/

section events

variable {s : State}

/-- A level taken, and then, on a configured line, its event (R4, R5). -/
theorem keeps_inputEvent {u v : State} (b : Bool) (hu : Keeps s u) (hv : Keeps u v) :
    Keeps s (if b then v else u) := by
  cases b with
  | true => exact hu.trans hv
  | false => exact hu

theorem keeps_execPourCompletion (i : LineNo) {t : State}
    (h : execPourCompletion i s = .next t) : Keeps s t := by
  obtain rfl := Host.Outcome.next.inj h
  refine keeps_powered ?_
  split
  · exact keeps_complete i s _
  · exact .refl s

theorem keeps_execValveHoldDrive (i : LineNo) {t : State}
    (h : execValveHoldDrive i s = .next t) : Keeps s t := by
  obtain rfl := Host.Outcome.next.inj h
  refine keeps_powered ?_
  split
  · exact keeps_setValve i s _
  · exact .refl s

theorem keeps_execIdleGapExpiry {t : State} (h : execIdleGapExpiry s = .next t) : Keeps s t := by
  obtain rfl := Host.Outcome.next.inj h
  refine keeps_powered ?_
  split
  · exact keeps_modLink id
  · exact keeps_discardFrame s _
  · exact .refl s

theorem keeps_execPeerExpiry (station : Byte) {t : State}
    (h : execPeerExpiry station s = .next t) : Keeps s t := by
  obtain rfl := Host.Outcome.next.inj h
  refine keeps_powered ?_
  split
  · exact .refl s
  · split
    · exact .refl s
    · exact keeps_ite (.after (keeps_evaluateClaim _) (.after (keeps_staleRegrant _)
        (keeps_setPeer s _ _)))

theorem keeps_execFlowTimeout {t : State} (h : execFlowTimeout s = .next t) : Keeps s t := by
  obtain rfl := Host.Outcome.next.inj h
  exact keeps_powered (keeps_stepEvent s fun _ =>
    keeps_ite (.after (keeps_afterFlagChange _) (keeps_modClean id)))

theorem keeps_execResponseReady {t : State} (h : execResponseReady s = .next t) : Keeps s t := by
  obtain rfl := Host.Outcome.next.inj h
  refine keeps_powered ?_
  split
  · exact .of_eq rfl rfl rfl rfl
  · exact .refl s

/-- An event whose outcome is a next state keeps what its operation keeps. -/
theorem keeps_next {t u : State}
    (h : (Host.Outcome.next u : Host.Outcome State Fault Refusal) = .next t) (hu : Keeps s u) :
    Keeps s t :=
  Host.Outcome.next.inj h ▸ hu

/-- Every command and event keeps the order queues and the counters. -/
theorem keeps_exec (c : Instr) {t : State} (h : exec c s = .next t) : Keeps s t := by
  cases c with
  | configure image => exact keeps_next h (keeps_command fun s => keeps_configureBody s image)
  | start => exact keeps_next h (keeps_command keeps_startBody)
  | stop => exact keeps_next h (keeps_command keeps_stopBody)
  | reset => exact keeps_next h (keeps_command keeps_resetBody)
  | readStatus => exact keeps_next h (keeps_command keeps_readStatusBody)
  | readLine line => exact keeps_next h (keeps_command fun s => keeps_readLineBody s line)
  | readSource source => exact keeps_next h (keeps_command fun s => keeps_readSourceBody s source)
  | readPeer station => exact keeps_next h (keeps_command fun s => keeps_readPeerBody s station)
  | readLink => exact keeps_next h (keeps_command keeps_readLinkBody)
  | readAttention => exact keeps_next h (keeps_command keeps_readAttentionBody)
  | takeRecord => exact keeps_next h (keeps_command keeps_takeRecordBody)
  | order line tag volume =>
    exact keeps_next h (keeps_command fun s => keeps_orderBody s line tag volume)
  | cancel line tag => exact keeps_next h (keeps_command fun s => keeps_cancelBody s line tag)
  | pourStop line => exact keeps_next h (keeps_command fun s => keeps_pourStopBody s line)
  | unlock line => exact keeps_next h (keeps_command fun s => keeps_unlockBody s line)
  | calibrate line va => exact keeps_next h (keeps_command fun s => keeps_calibrateBody s line va)
  | sourceChange source full =>
    exact keeps_next h (keeps_command fun s => keeps_sourceChangeBody s source full)
  | cleanStart entry lines =>
    exact keeps_next h (keeps_command fun s => keeps_cleanStartBody s entry lines)
  | cleanAbort => exact keeps_next h (keeps_command keeps_cleanAbortBody)
  | clearMute => exact keeps_next h (keeps_command keeps_clearMuteBody)
  | commandNotExecuted => exact keeps_next h (keeps_command fun s => .refl s)
  | readPeriod bytes => exact keeps_next h (keeps_powered (keeps_ite_not (keeps_readOut bytes)))
  | responseReady => exact keeps_execResponseReady h
  | resetResponseTimeout => exact keeps_next h (keeps_powered (keeps_ite (keeps_resetAct s)))
  | rstnAssert => exact keeps_next h ((keeps_resetAct s).trans (.of_eq rfl rfl rfl rfl))
  | rstnRelease => exact keeps_next h (keeps_resetAct s)
  | portReadyAfterReset =>
    exact keeps_next h (keeps_powered (keeps_ite (.of_eq rfl rfl rfl rfl)))
  | handlePress i =>
    exact keeps_next h (keeps_powered
      (keeps_inputEvent _ (keeps_takeHandle i s true) (keeps_pressHandle i _)))
  | handleRelease i =>
    exact keeps_next h (keeps_powered
      (keeps_inputEvent _ (keeps_takeHandle i s false) (keeps_releaseHandle i _)))
  | keyPress i k =>
    exact keeps_next h (keeps_powered
      (keeps_inputEvent _ (keeps_takeKey i s k) (keeps_pressKey i _ k)))
  | keyEntryExpiry i => exact keeps_next h (keeps_powered (keeps_ite (keeps_refuseEntry i s _)))
  | refuseFlashEnd i =>
    exact keeps_next h (keeps_powered (keeps_ite
      (.after (keeps_relamp i _) (keeps_setLine (.of_same rfl rfl rfl rfl)))))
  | valveHoldDrive i => exact keeps_execValveHoldDrive i h
  | meterPulse i =>
    exact keeps_next h (keeps_powered ((keeps_takeMeter i s).trans (keeps_takePulse i _)))
  | noFlowExpiry i => exact keeps_next h (keeps_powered (keeps_endIfPouring i s .noFlow))
  | pourTimerExpiry i => exact keeps_next h (keeps_powered (keeps_endIfPouring i s .timeLimit))
  | pourCompletion i => exact keeps_execPourCompletion i h
  | stationSecondsTick =>
    exact keeps_next h (keeps_powered (keeps_ite_not (.of_eq rfl rfl rfl rfl)))
  | validFrameArrival frame =>
    exact keeps_next h (keeps_powered (keeps_ite (keeps_arriveFrame s frame)))
  | frameDiscarded check =>
    exact keeps_next h (keeps_powered (keeps_ite (keeps_discardFrame s check)))
  | idleGapExpiry => exact keeps_execIdleGapExpiry h
  | announcementTimerExpiry =>
    exact keeps_next h (keeps_powered (keeps_ite_not
      (.after (keeps_requestStatus _) (keeps_modLink id))))
  | accessWaitExpiry => exact keeps_next h (keeps_powered (keeps_ite_not (keeps_startAttempt s)))
  | collision => exact keeps_next h (keeps_powered (keeps_collide s))
  | transmitSuccess => exact keeps_next h (keeps_powered (keeps_succeed s))
  | peerExpiry station => exact keeps_execPeerExpiry station h
  | sensorSample code => exact keeps_next h (keeps_powered (keeps_ite_not (keeps_sample s code)))
  | glycolFrameStart => exact keeps_next h (keeps_powered (keeps_ite_not (keeps_glycolFrame s)))
  | glycolOnTimeEnd => exact keeps_next h (keeps_powered (.of_eq rfl rfl rfl rfl))
  | conditionPinChange pin level =>
    exact keeps_next h (keeps_powered (keeps_ite_not
      ((keeps_takePin s pin level).trans (keeps_afterFlagChange _))))
  | flowTimeout => exact keeps_execFlowTimeout h
  | dwellExpiry => exact keeps_next h (keeps_powered (keeps_stepEvent s (keeps_dwellExpires s)))
  | limitExpiry => exact keeps_next h (keeps_powered (keeps_stepEvent s (keeps_limitExpires s)))
  | runLimitExpiry =>
    exact keeps_next h (keeps_powered (keeps_stepEvent s fun _ => keeps_endRunning s .failed))
  | characterStart => exact keeps_next h (keeps_powered (keeps_ite_not (keeps_modLink id)))
  | characterTaken value err => exact keeps_next h (keeps_powered (keeps_takeChar s value err))
  | lampBlinkPhase i =>
    exact keeps_next h (keeps_powered (keeps_ite (keeps_setLine (.of_same rfl rfl rfl rfl))))

end events

/-! ## The block's own clock -/

theorem keeps_takeDue (c : Instr) (s : State) : Keeps s (takeDue c s) := by
  rw [takeDue_eq]
  exact ⟨fun _ => .refl _, fun _ => id, id, id⟩

/-- No input stage counts (R4, R31, R101, R158). -/
theorem keeps_tick (s : State) : Keeps s (tick s) := by
  cases hr : s.rstnLow with
  | true => rw [tick_reset hr]; exact .of_eq rfl rfl rfl rfl
  | false =>
    refine ⟨fun i => ?_, fun x => ?_, ?_, ?_⟩
    · rw [tick_line hr]; exact .of_same rfl rfl rfl rfl
    · rw [source_congr (tick_only s .sources (by simp))]; exact id
    · rw [tick_clean hr]; exact id
    · rw [tick_link hr]
      split <;> exact id

theorem keeps_step {s t : State} (h : step s = .next t) : Keeps s t := by
  cases hp : s.pending with
  | cons c rest =>
    simp only [step, hp] at h
    exact .after (keeps_exec c h) (.of_eq rfl rfl rfl rfl)
  | nil =>
    simp only [step, hp, idleStep] at h
    cases hd : due s with
    | some c =>
      rw [hd] at h
      exact (keeps_takeDue c s).trans (keeps_exec c h)
    | none =>
      rw [hd] at h
      exact keeps_next h (keeps_tick s)

/-- Settles O54: every step keeps each line, each source record, the recipe and the link. -/
theorem ordersAndCountersKept : Obligations.OrdersAndCountersKept :=
  fun _ _ h => ⟨(keeps_step h).ordersOk, (keeps_step h).widthsOk⟩

end Sys2Proof.Machine

/-! SUPPORT. TAKE-RECORD and its statement (R77, R78, R197). -/

namespace Sys2Proof.Machine

/-! ## The bytes of a record (R197) -/

/-- The presence byte of a POUR record as the sum of its bits (R197). -/
theorem presence_pour (tag target creep : Bool) : presence tag target creep false =
    BitVec.ofNat 8 ((if tag then 2 ^ 0 else 0) + (if target then 2 ^ 1 else 0) +
      (if creep then 2 ^ 2 else 0)) := by
  cases tag <;> cases target <;> cases creep <;> rfl

/-- The presence byte of a CLEAN record (R197). -/
theorem presence_clean (last : Bool) :
    presence false false false last = BitVec.ofNat 8 (if last then 2 ^ 3 else 0) := by
  cases last <;> rfl

/-- A record is returned in the layout of R197, kind by kind. -/
theorem chars_eq_recordBytes (r : Record) : r.chars = recordBytes r := by
  cases r with
  | pour p =>
    obtain ⟨seq, start, duration, line, source, gen, mode, tag, target, total, foam, volume, reason,
      creep⟩ := p
    simp only [Record.chars, recordBytes, presence_pour, PourMode.code, EndReason.code,
      List.append_assoc]
    cases tag <;> cases target <;> cases creep <;> rfl
  | waste w =>
    simp only [Record.chars, recordBytes, List.append_assoc]
    rfl
  | clean c =>
    obtain ⟨seq, start, duration, run, entry, lines, result, last⟩ := c
    simp only [Record.chars, recordBytes, presence_clean, RunResult.code, List.append_assoc]
    cases last <;> rfl

/-! ## The walk leaves the port alone -/

/-- The service walk reads nothing of the port (R14). -/
theorem serveList_with_port (es : List StartEntry) (p : Port) (s : State) :
    serveList es { s with port := p } = { serveList es s with port := p } := by
  induction es generalizing s with
  | nil => rfl
  | cons e rest ih =>
    have hu : unstartable { s with port := p } e.line = unstartable s e.line := rfl
    have hh : stationHold { s with port := p } = stationHold s := rfl
    have hr : refuseEntry e.line .ready { s with port := p } =
        { refuseEntry e.line .ready s with port := p } := rfl
    have hb : beginPour e.line e.kind (removeStart e.line { s with port := p }) =
        { beginPour e.line e.kind (removeStart e.line s) with port := p } := rfl
    simp only [serveList, hu, hh, hr, hb, ih]
    split
    · rfl
    · split <;> rfl

theorem serve_with_port (p : Port) (s : State) :
    serve { s with port := p } = { serve s with port := p } :=
  serveList_with_port s.starts p s

/-! ## The command -/

/-- The oldest record has left the journal (R77). -/
def taken (s : State) (rest : List Record) : State :=
  { s with journal := { s.journal with records := rest } }

theorem taken_only (s : State) (rest : List Record) : Only [.journal] s (taken s rest) := by
  intro p hp; cases p <;> simp_all [Part.same, taken]

/-- A record is taken, and the list is served (R77, R78). -/
theorem takeRecord_served {s : State} (h : s.accepts) (hs : s.station ≠ .unconfigured) {r : Record}
    {rest : List Record} (hr : s.journal.records = r :: rest) :
    exec .takeRecord s = .next (answer .ok
      ([BitVec.ofNat 8 rest.length, BitVec.ofNat 8 (serve (taken s rest)).journal.reserved] ++
        bytes32 s.seconds ++ recordBytes r) (serve (taken s rest))) := by
  have hserve : serve (taken (beginCommand s) rest) =
      { serve (taken s rest) with port := (beginCommand s).port } :=
    serve_with_port (beginCommand s).port (taken s rest)
  have honly : Only [.lines, .starts, .pours, .journal] s (serve (taken s rest)) :=
    ((taken_only s rest).mono (by simp)).trans (serve_only _)
  have hrecords : (serve (taken s rest)).journal.records = rest := (serveList_records _ _).1
  have hseconds : (serve (taken s rest)).seconds = s.seconds := (honly .seconds (by simp)).1
  have hbody : takeRecordBody (beginCommand s) =
      (serve (taken (beginCommand s) rest), .ok,
        journalCounts (serve (taken (beginCommand s) rest)) ++ r.chars) := by
    have hjb : (beginCommand s).journal.records = r :: rest := hr
    simp only [takeRecordBody, beginCommand_station, hs, if_false, hjb]
    rfl
  have hcounts : journalCounts (serve (taken (beginCommand s) rest)) ++ r.chars =
      [BitVec.ofNat 8 rest.length, BitVec.ofNat 8 (serve (taken s rest)).journal.reserved] ++
        bytes32 s.seconds ++ recordBytes r := by
    simp only [hserve, journalCounts, hrecords, hseconds, chars_eq_recordBytes]
    rfl
  rw [hcounts] at hbody
  have hport : (serve (taken s rest)).port = s.port := honly .port (by simp)
  have hcommand := command_of_body h hbody (by rw [hserve])
    (by rw [hserve]; exact honly .now (by simp))
  rw [show exec .takeRecord s = .next (command takeRecordBody s) from rfl, hcommand, hserve]
  simp only [answer, ← hport]

/-- Settles O21: the three outcomes of the body, and the walk from the journal without its oldest
record. -/
theorem takeRecordCommand : Obligations.TakeRecordCommand := by
  intro s h
  refine ⟨fun hs => ?_, fun hs hr => ?_, fun r rest hs hr => ⟨takeRecord_served h hs hr, ?_, ?_, ?_, ?_⟩⟩
  · exact congrArg _ (command_unchanged h (by simp [takeRecordBody, hs, refuse]))
  · have hr' : (beginCommand s).journal.records = [] := hr
    have hbody : takeRecordBody (beginCommand s) = (beginCommand s, .empty,
        [0, BitVec.ofNat 8 s.journal.reserved] ++ bytes32 s.seconds) := by
      simp only [takeRecordBody, beginCommand_station, hs, if_false, hr', journalCounts]
      rfl
    exact congrArg _ (command_unchanged h hbody)
  · exact (serveList_records _ _).1
  · exact (serveList_records _ _).2
  · exact ((taken_only s rest).mono (by simp)).trans (serve_only _)
  · exact fun hstarts => serve_nil (s := taken s rest) hstarts

end Sys2Proof.Machine

/-! SUPPORT. What the station holds of its lines, its list, its journal and its run, line by line: the
invariant that every operation keeps, and its agreement with the statement's (R1, R2, R6, R7, R11, R64). -/

namespace Sys2Proof.Machine

/-! ## What is asked of a line -/

/-- What the cleaning run makes of a line (R27, R173): nothing, a line to be prepared, a line held for the
claim, or a line being cleaned, its faucet open or not by the step. -/
inductive Role where
  | free
  | preparing
  | claiming
  | cleaning (faucets : Bool)

/-- Where a line stands: configured or not, in a RUNNING station or not, and its role in the run. -/
structure Post where
  configured : Bool
  up : Bool
  role : Role

/-- The line holds no pour and no cleaning mark. -/
def Line.empty (l : Line) : Prop := l.pour = none ∧ l.cleanMark = false

/-- A pouring line is marked exactly when a run prepares it (R27). -/
def Post.marks (w : Post) (l : Line) : Prop :=
  (w.role = .free ∧ l.cleanMark = false) ∨ (w.role = .preparing ∧ l.cleanMark = true)

/-- A line fits where it stands: the table of R1 with the pour context (R16, R19), the lock reason (R2), the
valve (R7), the mark and the run (R27, R173). -/
def Post.fits (w : Post) (l : Line) : Prop :=
  match l.state with
  | .off => l.empty ∧ l.valve = .closed ∧ w.role = .free ∧ (w.configured = true → w.up = false) ∧
      (w.configured = false → l.flashFrom = none)
  | .ready | .waiting => l.empty ∧ l.valve = .closed ∧ w.role = .free ∧ w.configured = true ∧
      w.up = true ∧ l.lock = .clear
  | .locked => l.empty ∧ l.valve = .closed ∧ w.role = .free ∧ w.configured = true ∧
      w.up = true ∧ l.lock ≠ .clear
  | .pouring => (∃ p, l.pour = some p ∧ p.endReason = none) ∧ w.marks l ∧ w.configured = true ∧
      w.up = true ∧ l.lock = .clear
  | .afterRun => (∃ p r, l.pour = some p ∧ p.endReason = some r) ∧ w.marks l ∧ l.valve = .closed ∧
      w.configured = true ∧ l.lock = .clear
  | .reserved => l.empty ∧ l.valve = .closed ∧ (w.role = .preparing ∨ w.role = .claiming) ∧
      w.configured = true ∧ w.up = true ∧ l.lock = .clear
  | .cleaning => l.empty ∧ (∃ b, w.role = .cleaning b ∧ (l.valve ≠ .closed → b = true)) ∧
      w.configured = true ∧ w.up = true ∧ l.lock = .clear

/-- What the run asks of its selected lines (R173). -/
def Cleaning.role (c : Cleaning) : Role :=
  match c.runState with
  | .idle => .free
  | .preparing => .preparing
  | .claiming => .claiming
  | .running => .cleaning c.out.faucets

/-- Where the lines of a state stand. -/
def State.post (s : State) (i : LineNo) : Post :=
  { configured := s.configured i, up := s.station == .running,
    role := if i ∈ s.selected then s.clean.role else .free }

/-! ## The invariant -/

/-- The lines fit where they stand, the lamps that must follow do, and the list, the count of pours and the
journal's slots agree with the lines (R11, R64, R66, R173). `stand` says where the lines stand, and `Lit`
which lamps must follow. -/
structure Tower (stand : LineNo → Post) (Lit : LineNo → Prop) (s : State) : Prop where
  fits : ∀ i, (stand i).fits (s.line i)
  lit : ∀ i, Lit i → (s.line i).lamp = lampPattern s i
  pours : s.pours = (allLines.filter fun i => (s.line i).inPour).length
  reserved : s.journal.reserved = s.pours + s.clean.slots
  room : s.journal.records.length + s.journal.reserved ≤ 64
  nodup : (s.starts.map StartEntry.line).Nodup
  waiting : ∀ i, (s.line i).state = .waiting ↔ i ∈ s.starts.map StartEntry.line

/-- The run's own fields agree (R173). -/
structure RunShape (s : State) : Prop where
  idle : s.clean.runState = .idle ↔ s.clean.job = none
  running : s.clean.runState = .running ↔ s.clean.progress.isSome = true
  slots : s.clean.slots = match s.clean.job with
    | some j => 1 + (linesOf j.lines).length
    | none => 0

/-- Beside the run's own fields, the configuration is absent while UNCONFIGURED (R191), and a station that is
not RUNNING has no run and no list (R29). -/
structure Shape (s : State) : Prop extends RunShape s where
  config : s.station = .unconfigured ↔ s.config = none
  shut : s.station ≠ .running → s.clean.runState = .idle ∧ s.starts = []

/-- The invariant that every step keeps: every line fits where it stands, and all lamps follow, if `L`. -/
structure Sound (L : Prop) (s : State) : Prop where
  tower : Tower s.post (fun _ => L) s
  shape : Shape s

/-! ## Agreement with the statement -/

section agreement

variable {L : Prop} {s : State}

/-- The clauses of the statement's invariants on one line. -/
structure LineClauses (s : State) (i : LineNo) : Prop where
  pour : (s.line i).pour.isSome = (s.line i).inPour
  ended : ∀ p ∈ (s.line i).pour, (p.endReason.isSome = true ↔ (s.line i).state = .afterRun)
  cleaning : (s.line i).state = .cleaning ↔ (s.clean.runState = .running ∧ i ∈ s.selected)
  reserved : (s.line i).state = .reserved → i ∈ s.selected ∧
    (s.clean.runState = .preparing ∨ s.clean.runState = .claiming)
  claiming : s.clean.runState = .claiming → i ∈ s.selected → (s.line i).state = .reserved
  mark : (s.line i).cleanMark = true ↔
    (s.clean.runState = .preparing ∧ i ∈ s.selected ∧ (s.line i).inPour = true)
  preparing : s.clean.runState = .preparing → i ∈ s.selected →
    (s.line i).state = .reserved ∨ (s.line i).inPour = true
  valve : (s.line i).valve ≠ .closed → (s.line i).state = .pouring ∨
    (s.clean.runState = .running ∧ i ∈ s.selected ∧ s.clean.out.faucets = true)
  bare : s.configured i = false → (s.line i).state = .off ∧ (s.line i).flashFrom = none
  up : s.station = .running → s.configured i = true → (s.line i).state ≠ .off
  down : s.station ≠ .running → (s.line i).state = .off ∨ (s.line i).state = .afterRun
  locked : (s.line i).state = .locked ↔ (s.line i).lock ≠ .clear ∧ (s.line i).state ≠ .off

theorem post_preparing (s : State) (i : LineNo) :
    (s.post i).role = .preparing ↔ s.clean.runState = .preparing ∧ i ∈ s.selected := by
  by_cases hi : i ∈ s.selected <;> cases hr : s.clean.runState <;>
    simp [State.post, Cleaning.role, hi, hr]

theorem post_claiming (s : State) (i : LineNo) :
    (s.post i).role = .claiming ↔ s.clean.runState = .claiming ∧ i ∈ s.selected := by
  by_cases hi : i ∈ s.selected <;> cases hr : s.clean.runState <;>
    simp [State.post, Cleaning.role, hi, hr]

theorem post_cleaning (s : State) (i : LineNo) (b : Bool) :
    (s.post i).role = .cleaning b ↔
      (s.clean.runState = .running ∧ i ∈ s.selected) ∧ s.clean.out.faucets = b := by
  by_cases hi : i ∈ s.selected <;> cases hr : s.clean.runState <;>
    simp [State.post, Cleaning.role, hi, hr]

theorem post_free (s : State) (i : LineNo) : (s.post i).role = .free ↔
    (s.clean.runState = .idle ∨ i ∉ s.selected) := by
  by_cases hi : i ∈ s.selected <;> cases hr : s.clean.runState <;>
    simp [State.post, Cleaning.role, hi, hr]

/-- The role of a line that is neither held nor marked by the run is free. -/
theorem LineClauses.free {i : LineNo} (h : LineClauses s i) (hr : (s.line i).state ≠ .reserved)
    (hc : (s.line i).state ≠ .cleaning) (hm : (s.line i).cleanMark = false) :
    (s.post i).role = .free := by
  rw [post_free]
  by_contra hsel
  obtain ⟨hidle, hi⟩ := not_or.mp hsel
  have hi := not_not.mp hi
  cases hrun : s.clean.runState with
  | idle => exact hidle hrun
  | preparing =>
    have hp := (h.preparing hrun hi).resolve_left hr
    simp [h.mark.mpr ⟨hrun, hi, hp⟩] at hm
  | claiming => exact hr (h.claiming hrun hi)
  | running => exact hc (h.cleaning.mpr ⟨hrun, hi⟩)

/-- A line without a pour has no mark. -/
theorem LineClauses.unmarked {i : LineNo} (h : LineClauses s i) (hp : (s.line i).inPour = false) :
    (s.line i).cleanMark = false := by
  by_contra hm
  have hpour := (h.mark.mp (by simpa using hm)).2.2
  simp [hp] at hpour

theorem LineClauses.marks {i : LineNo} (h : LineClauses s i)
    (hr : (s.line i).state ≠ .reserved) (hc : (s.line i).state ≠ .cleaning) :
    (s.post i).marks (s.line i) := by
  cases hm : (s.line i).cleanMark with
  | false => exact .inl ⟨h.free hr hc hm, hm⟩
  | true =>
    obtain ⟨hrun, hi, -⟩ := h.mark.mp hm
    exact .inr ⟨(post_preparing s i).mpr ⟨hrun, hi⟩, hm⟩

/-- A line that meets the statement's clauses fits where it stands. -/
theorem LineClauses.fits {i : LineNo} (h : LineClauses s i) : (s.post i).fits (s.line i) := by
  have hconf : (s.line i).state ≠ .off → s.configured i = true := fun hne => by
    by_contra hc
    exact hne (h.bare (by simpa using hc)).1
  have hup : (s.line i).state ≠ .off → (s.line i).state ≠ .afterRun →
      (s.station == .running) = true := fun h1 h2 => by
    by_contra hc
    exact (h.down (by simpa using hc)).elim h1 h2
  have hclosed : (s.line i).state ≠ .pouring → (s.line i).state ≠ .cleaning →
      (s.line i).valve = .closed := fun h1 h2 => by
    by_contra hv
    exact (h.valve hv).elim h1 fun hr => h2 (h.cleaning.mpr ⟨hr.1, hr.2.1⟩)
  have hlock : (s.line i).state ≠ .off → (s.line i).state ≠ .locked →
      (s.line i).lock = .clear := fun h1 h2 => by
    by_contra hl
    exact h2 (h.locked.mpr ⟨hl, h1⟩)
  have hempty : (s.line i).inPour = false → (s.line i).empty := fun hp =>
    ⟨by simpa [hp] using h.pour, h.unmarked hp⟩
  have hfree : (s.line i).state ≠ .reserved → (s.line i).state ≠ .cleaning →
      (s.line i).inPour = false → (s.post i).role = .free :=
    fun hr hc hp => h.free hr hc (h.unmarked hp)
  have hc : (s.post i).configured = s.configured i := rfl
  have hu : (s.post i).up = (s.station == .running) := rfl
  unfold Post.fits
  rw [hc, hu]
  cases hst : (s.line i).state <;> simp only
  case off =>
    have hp : (s.line i).inPour = false := by simp [Line.inPour, hst]
    refine ⟨hempty hp, hclosed (by simp [hst]) (by simp [hst]), hfree (by simp [hst]) (by simp [hst]) hp,
      fun hconf => ?_, fun hbare => (h.bare hbare).2⟩
    by_contra hrun
    exact h.up (by simpa using hrun) hconf hst
  case pouring =>
    have hin : (s.line i).inPour = true := by simp [Line.inPour, hst]
    obtain ⟨p, hp⟩ := Option.isSome_iff_exists.mp (h.pour.trans hin)
    have hnone : p.endReason = none := by simpa [hst] using h.ended p hp
    exact ⟨⟨p, hp, hnone⟩, h.marks (by simp [hst]) (by simp [hst]), hconf (by simp [hst]),
      hup (by simp [hst]) (by simp [hst]), hlock (by simp [hst]) (by simp [hst])⟩
  case afterRun =>
    have hin : (s.line i).inPour = true := by simp [Line.inPour, hst]
    obtain ⟨p, hp⟩ := Option.isSome_iff_exists.mp (h.pour.trans hin)
    obtain ⟨r, hr⟩ := Option.isSome_iff_exists.mp ((h.ended p hp).mpr hst)
    exact ⟨⟨p, r, hp, hr⟩, h.marks (by simp [hst]) (by simp [hst]),
      hclosed (by simp [hst]) (by simp [hst]), hconf (by simp [hst]),
      hlock (by simp [hst]) (by simp [hst])⟩
  case reserved =>
    have hp : (s.line i).inPour = false := by simp [Line.inPour, hst]
    obtain ⟨hi, hrun⟩ := h.reserved hst
    refine ⟨hempty hp, hclosed (by simp [hst]) (by simp [hst]), ?_, hconf (by simp [hst]),
      hup (by simp [hst]) (by simp [hst]), hlock (by simp [hst]) (by simp [hst])⟩
    rw [post_preparing, post_claiming]
    exact hrun.imp (⟨·, hi⟩) (⟨·, hi⟩)
  case cleaning =>
    have hp : (s.line i).inPour = false := by simp [Line.inPour, hst]
    refine ⟨hempty hp, ⟨_, (post_cleaning s i _).mpr ⟨h.cleaning.mp hst, rfl⟩, fun hv => ?_⟩,
      hconf (by simp [hst]), hup (by simp [hst]) (by simp [hst]), hlock (by simp [hst]) (by simp [hst])⟩
    exact ((h.valve hv).resolve_left (by simp [hst])).2.2
  case locked =>
    have hp : (s.line i).inPour = false := by simp [Line.inPour, hst]
    exact ⟨hempty hp, hclosed (by simp [hst]) (by simp [hst]),
      hfree (by simp [hst]) (by simp [hst]) hp, hconf (by simp [hst]),
      hup (by simp [hst]) (by simp [hst]), (h.locked.mp hst).1⟩
  all_goals
    have hp : (s.line i).inPour = false := by simp [Line.inPour, hst]
    exact ⟨hempty hp, hclosed (by simp [hst]) (by simp [hst]),
      hfree (by simp [hst]) (by simp [hst]) hp, hconf (by simp [hst]),
      hup (by simp [hst]) (by simp [hst]), hlock (by simp [hst]) (by simp [hst])⟩

/-- A line that fits where it stands meets the statement's clauses. -/
theorem Post.fits.clauses {i : LineNo} (h : (s.post i).fits (s.line i)) : LineClauses s i := by
  have hc : (s.post i).configured = s.configured i := rfl
  have hu : (s.post i).up = (s.station == .running) := rfl
  have hfree := post_free s i
  have hpreparing := post_preparing s i
  have hclaiming := post_claiming s i
  have hcleaning := post_cleaning s i
  unfold Post.fits at h
  rw [hc, hu] at h
  cases hst : (s.line i).state <;> simp only [hst] at h
  case pouring =>
    obtain ⟨⟨p, hp, hr⟩, ⟨hrole, hm⟩ | ⟨hrole, hm⟩, hconf, hup, hlock⟩ := h
    · rcases hfree.mp hrole with hidle | hi <;>
        constructor <;> simp_all [Line.inPour]
    · obtain ⟨hrun, hi⟩ := hpreparing.mp hrole
      constructor <;> simp_all [Line.inPour]
  case afterRun =>
    obtain ⟨⟨p, r, hp, hr⟩, ⟨hrole, hm⟩ | ⟨hrole, hm⟩, hv, hconf, hlock⟩ := h
    · rcases hfree.mp hrole with hidle | hi <;>
        constructor <;> simp_all [Line.inPour]
    · obtain ⟨hrun, hi⟩ := hpreparing.mp hrole
      constructor <;> simp_all [Line.inPour]
  case reserved =>
    obtain ⟨⟨hp, hm⟩, hv, hrole | hrole, hconf, hup, hlock⟩ := h
    · obtain ⟨hrun, hi⟩ := hpreparing.mp hrole
      constructor <;> simp_all [Line.inPour]
    · obtain ⟨hrun, hi⟩ := hclaiming.mp hrole
      constructor <;> simp_all [Line.inPour]
  case cleaning =>
    obtain ⟨⟨hp, hm⟩, ⟨b, hrole, hv⟩, hconf, hup, hlock⟩ := h
    obtain ⟨⟨hrun, hi⟩, hb⟩ := (hcleaning b).mp hrole
    constructor <;> simp_all [Line.inPour]
  case off =>
    obtain ⟨⟨hp, hm⟩, hv, hrole, hdown, hflash⟩ := h
    have hup : s.station = .running → s.configured i = false := fun hr => by
      by_contra hconf
      simp [hr] at hdown
      simp [hdown] at hconf
    rcases hfree.mp hrole with hidle | hi <;>
      constructor <;> simp_all [Line.inPour]
  all_goals
    obtain ⟨⟨hp, hm⟩, hv, hrole, hconf, hup, hlock⟩ := h
    rcases hfree.mp hrole with hidle | hi <;>
      constructor <;> simp_all [Line.inPour]

/-- The statement's invariants, line by line, with the lamps. -/
theorem stationOk_lampsOk_iff : (StationOk s ∧ (L → LampsOk s)) ↔ Sound L s := by
  constructor
  · rintro ⟨⟨⟨hpour, hpours⟩, ⟨hreserved, hroom, hslots⟩, ⟨hnodup, hwaiting⟩, ⟨hidle, hrunning, hrun⟩,
      hvalve, ⟨hconfig, hline⟩, hshut⟩, hlamps⟩
    refine ⟨⟨fun i => LineClauses.fits ?_, fun i hl => hlamps hl i, hpours, hreserved, hroom, hnodup,
      hwaiting⟩, ⟨⟨hidle, hrunning, hslots⟩, hconfig, hshut⟩⟩
    obtain ⟨hsome, hended⟩ := hpour i
    obtain ⟨hcleaning, hres, hclaiming, hmark, hpreparing⟩ := hrun i
    obtain ⟨hbare, hup, hdown, hlock⟩ := hline i
    exact ⟨hsome, hended, hcleaning, hres, hclaiming, hmark, hpreparing, hvalve i, hbare, hup, hdown, hlock⟩
  · rintro ⟨⟨hfits, hlit, hpours, hreserved, hroom, hnodup, hwaiting⟩,
      ⟨⟨hidle, hrunning, hslots⟩, hconfig, hshut⟩⟩
    have hc := fun i => (hfits i).clauses
    exact ⟨⟨⟨fun i => ⟨(hc i).pour, (hc i).ended⟩, hpours⟩, ⟨hreserved, hroom, hslots⟩,
      ⟨hnodup, hwaiting⟩, ⟨hidle, hrunning, fun i => ⟨(hc i).cleaning, (hc i).reserved,
        (hc i).claiming, (hc i).mark, (hc i).preparing⟩⟩, fun i => (hc i).valve,
      ⟨hconfig, fun i => ⟨(hc i).bare, (hc i).up, (hc i).down, (hc i).locked⟩⟩, hshut⟩,
      fun hl i => hlit i hl⟩

end agreement

end Sys2Proof.Machine

/-! SUPPORT. How the invariant of the station is kept when one line changes, when several do, and when nothing
of it does. -/

namespace Sys2Proof.Machine

/-! ## A line that fits, state by state -/

section fits

variable {w : Post} {l l' : Line}

theorem fits_off (hs : l.state = .off) : w.fits l ↔ l.empty ∧ l.valve = .closed ∧ w.role = .free ∧
    (w.configured = true → w.up = false) ∧ (w.configured = false → l.flashFrom = none) := by
  simp only [Post.fits, hs]

/-- A READY line and a WAITING line are held to the same. -/
theorem fits_standing (hs : l.state = .ready ∨ l.state = .waiting) : w.fits l ↔ l.empty ∧
    l.valve = .closed ∧ w.role = .free ∧ w.configured = true ∧ w.up = true ∧ l.lock = .clear := by
  rcases hs with hs | hs <;> simp only [Post.fits, hs]

theorem fits_locked (hs : l.state = .locked) : w.fits l ↔ l.empty ∧ l.valve = .closed ∧
    w.role = .free ∧ w.configured = true ∧ w.up = true ∧ l.lock ≠ .clear := by
  simp only [Post.fits, hs]

theorem fits_pouring (hs : l.state = .pouring) : w.fits l ↔
    (∃ p, l.pour = some p ∧ p.endReason = none) ∧ w.marks l ∧ w.configured = true ∧
      w.up = true ∧ l.lock = .clear := by
  simp only [Post.fits, hs]

theorem fits_afterRun (hs : l.state = .afterRun) : w.fits l ↔
    (∃ p r, l.pour = some p ∧ p.endReason = some r) ∧ w.marks l ∧ l.valve = .closed ∧
      w.configured = true ∧ l.lock = .clear := by
  simp only [Post.fits, hs]

theorem fits_reserved (hs : l.state = .reserved) : w.fits l ↔ l.empty ∧ l.valve = .closed ∧
    (w.role = .preparing ∨ w.role = .claiming) ∧ w.configured = true ∧ w.up = true ∧
      l.lock = .clear := by
  simp only [Post.fits, hs]

theorem fits_cleaning (hs : l.state = .cleaning) : w.fits l ↔ l.empty ∧
    (∃ b, w.role = .cleaning b ∧ (l.valve ≠ .closed → b = true)) ∧ w.configured = true ∧
      w.up = true ∧ l.lock = .clear := by
  simp only [Post.fits, hs]

/-- A line that is not OFF is configured. -/
theorem Post.fits.configured (h : w.fits l) (hs : l.state ≠ .off) : w.configured = true := by
  unfold Post.fits at h
  cases hst : l.state <;> simp_all

/-- What fits is the line's state, lock, pour, mark and valve, and the flash of a line not configured. -/
theorem Post.fits.congr (h : w.fits l) (hstate : l'.state = l.state) (hlock : l'.lock = l.lock)
    (hpour : l'.pour = l.pour) (hmark : l'.cleanMark = l.cleanMark) (hvalve : l'.valve = l.valve)
    (hflash : w.configured = false → l'.flashFrom = l.flashFrom) : w.fits l' := by
  have hempty : l'.empty ↔ l.empty := by simp only [Line.empty, hpour, hmark]
  have hmarks : w.marks l' ↔ w.marks l := by simp only [Post.marks, hmark]
  cases hs : l.state with
  | off =>
    obtain ⟨hem, hv, hrole, hup, hnone⟩ := (fits_off hs).mp h
    exact (fits_off (hstate.trans hs)).mpr ⟨hempty.mpr hem, hvalve.trans hv, hrole, hup,
      fun hc => (hflash hc).trans (hnone hc)⟩
  | _ => simpa only [Post.fits, hs, hstate, hempty, hmarks, hlock, hpour, hvalve] using h

/-- Lamps are not looked at. -/
theorem fits_sansLamp (h : l'.sansLamp = l.sansLamp) (hf : w.fits l) : w.fits l' := by
  have hs : w.fits l'.sansLamp := by rw [h]; exact hf
  exact hs

/-- A line has a pour by its state alone (R1, R15). -/
theorem inPour_of_state {st : LineState} (h : l.state = st) :
    l.inPour = (st == .pouring || st == .afterRun) := by
  rw [← h]; rfl

theorem inPour_sansLamp (h : l'.sansLamp = l.sansLamp) : l'.inPour = l.inPour :=
  (congrArg Line.inPour h : l'.sansLamp.inPour = l.sansLamp.inPour)

theorem state_sansLamp (h : l'.sansLamp = l.sansLamp) : l'.state = l.state :=
  (congrArg Line.state h : l'.sansLamp.state = l.sansLamp.state)

end fits

/-! ## What lamps read -/

/-- Two states agree on what lamps read beside the lines (R6). -/
structure SameReads (s t : State) : Prop where
  configured : ∀ i, t.configured i = s.configured i
  empty : ∀ i, t.sourceEmpty i = s.sourceEmpty i
  warm : t.cool.warmHold = s.cool.warmHold

section reads

variable {s t u : State} {ps : List Part} {i : LineNo}

theorem SameReads.refl (s : State) : SameReads s s := ⟨fun _ => rfl, fun _ => rfl, rfl⟩

theorem SameReads.trans (h : SameReads s t) (h' : SameReads t u) : SameReads s u :=
  ⟨fun i => (h'.configured i).trans (h.configured i), fun i => (h'.empty i).trans (h.empty i),
    h'.warm.trans h.warm⟩

theorem sourceEmpty_congr (hc : t.config = s.config)
    (hs : ∀ x, (t.source x).empty = (s.source x).empty) (i : LineNo) :
    t.sourceEmpty i = s.sourceEmpty i := by
  unfold State.sourceEmpty
  rw [lineCfg_congr hc, hs]

theorem SameReads.of_only (h : Only ps s t)
    (hps : Part.config ∉ ps ∧ Part.sources ∉ ps ∧ Part.cool ∉ ps) : SameReads s t :=
  ⟨configured_congr (h .config hps.1),
    sourceEmpty_congr (h .config hps.1) fun x => by rw [source_congr (h .sources hps.2.1)],
    congrArg Cooling.warmHold (h .cool hps.2.2)⟩

theorem lampPattern_of_reads (h : SameReads s t) (hstate : (t.line i).state = (s.line i).state)
    (hflash : (t.line i).flashFrom = (s.line i).flashFrom) : lampPattern t i = lampPattern s i := by
  simp only [lampPattern, h.configured, h.empty, h.warm, hstate, hflash]

end reads

/-! ## The count of pours -/

/-- Where one line changes, the count of pours follows it. -/
theorem poursCount_change {s t : State} {i : LineNo} (h : OtherLines i s t) :
    (allLines.filter fun j => (t.line j).inPour).length + (s.line i).inPour.toNat =
      (allLines.filter fun j => (s.line j).inPour).length + (t.line i).inPour.toNat := by
  have hperm : ∀ f : LineNo → Bool, (allLines.filter f).length =
      ((allLines.erase i).filter f).length + (f i).toNat := by
    intro f
    rw [((List.perm_cons_erase (mem_allLines i)).filter f).length_eq, List.filter_cons]
    cases f i <;> simp
  have hrest : (allLines.erase i).filter (fun j => (t.line j).inPour) =
      (allLines.erase i).filter fun j => (s.line j).inPour :=
    List.filter_congr fun j hj => by
      rw [h j (allLines_nodup.mem_erase_iff.mp hj).1]
  rw [hperm, hperm, hrest]
  omega

/-! ## One line changes -/

section tower

variable {stand : LineNo → Post} {Lit : LineNo → Prop} {s t : State} {i : LineNo} {l : Line} {w : Post}
  {ps : List Part}

/-- A line changes, with the list, the count of pours and the journal: where it then stands, it fits. -/
theorem Tower.change {Lit' : LineNo → Prop} (h : Tower stand Lit s)
    (hlit : ∀ j, j ≠ i → Lit' j → Lit j) (hline : (t.line i).sansLamp = l.sansLamp)
    (hlamp : Lit' i → (t.line i).lamp = lampPattern t i) (ho : OtherLines i s t)
    (hreads : SameReads s t) (hfits : w.fits l)
    (hpours : t.pours + (s.line i).inPour.toNat = s.pours + l.inPour.toNat)
    (hreserved : t.journal.reserved = t.pours + t.clean.slots)
    (hroom : t.journal.records.length + t.journal.reserved ≤ 64)
    (hnodup : (t.starts.map StartEntry.line).Nodup)
    (hwaiting : l.state = .waiting ↔ i ∈ t.starts.map StartEntry.line)
    (hothers : ∀ j, j ≠ i →
      (j ∈ t.starts.map StartEntry.line ↔ j ∈ s.starts.map StartEntry.line)) :
    Tower (Function.update stand i w) Lit' t := by
  refine ⟨fun j => ?_, fun j hj => ?_, ?_, hreserved, hroom, hnodup, fun j => ?_⟩
  · by_cases hji : j = i
    · subst hji
      rw [Function.update_self]
      exact fits_sansLamp hline hfits
    · rw [Function.update_of_ne hji, ho j hji]
      exact h.fits j
  · by_cases hji : j = i
    · subst hji
      exact hlamp hj
    · rw [ho j hji, h.lit j (hlit j hji hj)]
      exact (lampPattern_of_reads hreads (by rw [ho j hji]) (by rw [ho j hji])).symm
  · have hcount := poursCount_change ho
    have hin := inPour_sansLamp hline
    have hs := h.pours
    rw [hin] at hcount
    omega
  · by_cases hji : j = i
    · subst hji
      rw [state_sansLamp hline]
      exact hwaiting
    · rw [ho j hji, hothers j hji]
      exact h.waiting j

/-- The parts of the state that the invariant reads beside the lines. -/
def towerParts : List Part := [.config, .starts, .pours, .journal, .sources, .cool, .clean]

/-- A line alone changes, and neither begins nor ends a pour or a wait. -/
theorem Tower.moves (h : Tower stand Lit s) (hline : (t.line i).sansLamp = l.sansLamp)
    (hlamp : Lit i → (t.line i).lamp = lampPattern t i) (ho : OtherLines i s t) (hf : Only ps s t)
    (hps : ∀ p ∈ towerParts, p ∉ ps) (hfits : w.fits l) (hpour : l.inPour = (s.line i).inPour)
    (hwait : l.state = .waiting ↔ (s.line i).state = .waiting) :
    Tower (Function.update stand i w) Lit t := by
  have hstarts : t.starts = s.starts := hf .starts (hps _ (by decide))
  have hjournal : t.journal = s.journal := hf .journal (hps _ (by decide))
  have hpours : t.pours = s.pours := hf .pours (hps _ (by decide))
  have hclean : t.clean = s.clean := hf .clean (hps _ (by decide))
  refine h.change (fun _ _ => id) hline hlamp ho
    (.of_only hf ⟨hps _ (by decide), hps _ (by decide), hps _ (by decide)⟩) hfits
    (by rw [hpours, hpour]) ?_ ?_ ?_ ?_ ?_
  · rw [hjournal, hpours, hclean]; exact h.reserved
  · rw [hjournal]; exact h.room
  · rw [hstarts]; exact h.nodup
  · rw [hstarts, hwait]; exact h.waiting i
  · intro j _; rw [hstarts]

/-- The same with the line standing where it stood. -/
theorem Tower.stays (h : Tower stand Lit s) (hline : (t.line i).sansLamp = l.sansLamp)
    (hlamp : Lit i → (t.line i).lamp = lampPattern t i) (ho : OtherLines i s t) (hf : Only ps s t)
    (hps : ∀ p ∈ towerParts, p ∉ ps) (hfits : (stand i).fits l)
    (hpour : l.inPour = (s.line i).inPour)
    (hwait : l.state = .waiting ↔ (s.line i).state = .waiting) : Tower stand Lit t := by
  have hm := h.moves hline hlamp ho hf hps hfits hpour hwait
  rwa [Function.update_eq_self] at hm

/-- A write of a line that leaves its state, its flash and its lamp. -/
theorem Tower.writes_moves (h : Tower stand Lit s) (hfits : w.fits l)
    (hstate : l.state = (s.line i).state) (hflash : l.flashFrom = (s.line i).flashFrom)
    (hlamp : l.lamp = (s.line i).lamp) : Tower (Function.update stand i w) Lit (s.setLine i l) := by
  refine h.moves (l := l) (by rw [line_setLine_same]) (fun hi => ?_) (setLine_others s i l)
    (setLine_only s i l) (by decide) hfits (by simp only [Line.inPour, hstate]) (by rw [hstate])
  rw [line_setLine_same, hlamp, h.lit i hi]
  exact (lampPattern_of_reads (.of_only (setLine_only s i l) (by simp))
    (by rw [line_setLine_same, hstate]) (by rw [line_setLine_same, hflash])).symm

theorem Tower.writes (h : Tower stand Lit s) (hfits : (stand i).fits l)
    (hstate : l.state = (s.line i).state) (hflash : l.flashFrom = (s.line i).flashFrom)
    (hlamp : l.lamp = (s.line i).lamp) : Tower stand Lit (s.setLine i l) := by
  have hm := h.writes_moves hfits hstate hflash hlamp
  rwa [Function.update_eq_self] at hm

/-- Lines change in figures that neither the list, the count of pours nor the lamps read. -/
theorem Tower.of_lines (h : Tower stand Lit s) (hfits : ∀ i, (stand i).fits (t.line i))
    (hstate : ∀ i, (t.line i).state = (s.line i).state)
    (hflash : ∀ i, (t.line i).flashFrom = (s.line i).flashFrom)
    (hlamp : ∀ i, (t.line i).lamp = (s.line i).lamp) (hreads : SameReads s t)
    (hstarts : t.starts = s.starts) (hpours : t.pours = s.pours)
    (hreserved : t.journal.reserved = t.pours + t.clean.slots)
    (hroom : t.journal.records.length + t.journal.reserved ≤ 64) : Tower stand Lit t := by
  refine ⟨hfits, fun i hi => ?_, ?_, hreserved, hroom, hstarts ▸ h.nodup, fun i => ?_⟩
  · rw [hlamp, h.lit i hi]
    exact (lampPattern_of_reads hreads (hstate i) (hflash i)).symm
  · rw [hpours, h.pours]
    simp only [Line.inPour, hstate]
  · rw [hstate, hstarts]; exact h.waiting i

/-- Nothing of the invariant changes. -/
theorem Tower.of_same (h : Tower stand Lit s) (hlines : t.lines = s.lines) (hreads : SameReads s t)
    (hstarts : t.starts = s.starts) (hpours : t.pours = s.pours) (hjournal : t.journal = s.journal)
    (hslots : t.clean.slots = s.clean.slots) : Tower stand Lit t := by
  have hl := line_congr hlines
  exact h.of_lines (fun i => hl i ▸ h.fits i) (fun i => by rw [hl]) (fun i => by rw [hl])
    (fun i => by rw [hl]) hreads hstarts hpours (by rw [hjournal, hpours, hslots]; exact h.reserved)
    (by rw [hjournal]; exact h.room)

theorem Tower.of_only (h : Tower stand Lit s) (hf : Only ps s t)
    (hps : ∀ p ∈ .lines :: towerParts, p ∉ ps) : Tower stand Lit t :=
  h.of_same (hf .lines (hps _ (by decide)))
    (.of_only hf ⟨hps _ (by decide), hps _ (by decide), hps _ (by decide)⟩)
    (hf .starts (hps _ (by decide))) (hf .pours (hps _ (by decide)))
    (hf .journal (hps _ (by decide))) (congrArg Cleaning.slots (hf .clean (hps _ (by decide))))

/-- Nothing but the recipe changes, and no slot. -/
theorem Tower.cleans (h : Tower stand Lit s) {f : Cleaning → Cleaning}
    (hf : (f s.clean).slots = s.clean.slots) : Tower stand Lit (modClean f s) :=
  h.of_same rfl ⟨fun _ => rfl, fun _ => rfl, rfl⟩ rfl rfl rfl hf

/-- The lines may be said to stand elsewhere where they fit, and fewer lamps looked at. -/
theorem Tower.restand (h : Tower stand Lit s) {stand' : LineNo → Post} {Lit' : LineNo → Prop}
    (hfits : ∀ i, (stand i).fits (s.line i) → (stand' i).fits (s.line i))
    (hlit : ∀ i, Lit' i → Lit i) : Tower stand' Lit' s :=
  ⟨fun i => hfits i (h.fits i), fun i hi => h.lit i (hlit i hi), h.pours, h.reserved, h.room, h.nodup,
    h.waiting⟩

/-! ## Several lines change -/

/-- An operation on each of several lines keeps what it always keeps. -/
theorem overLines_always {f : LineNo → State → State} {P : State → Prop}
    (hf : ∀ i u, P u → P (f i u)) (is : List LineNo) (h : P s) : P (overLines f is s) := by
  induction is generalizing s with
  | nil => exact h
  | cons k rest ih => exact ih (hf k s h)

/-- An operation on each of several lines keeps what it keeps on a line that is as it was (`Before`). -/
theorem overLines_keeps {f : LineNo → State → State} {P : State → Prop} {Before : LineNo → Line → Prop}
    (hf : ∀ i u, P u → Before i (u.line i) → P (f i u)) (ho : ∀ i u, OtherLines i u (f i u))
    {is : List LineNo} (hn : is.Nodup) (h : P s) (hb : ∀ i ∈ is, Before i (s.line i)) :
    P (overLines f is s) := by
  induction is generalizing s with
  | nil => exact h
  | cons k rest ih =>
    obtain ⟨hk, hrest⟩ := List.nodup_cons.mp hn
    exact ih hrest (hf k s h (hb k (by simp))) fun i hi => by
      rw [ho k s i fun e => hk (e ▸ hi)]
      exact hb i (by simp [hi])

/-- An operation on each of several lines: each line then stands where the operation puts it, when the
operation does so on a line that is as it was (`Before`), in a state that agrees with the first (`Agree`). -/
theorem Tower.several {f : LineNo → State → State} {dest : LineNo → Post}
    {Before : LineNo → Line → Prop} {Agree : State → Prop}
    (hf : ∀ i u st, Tower st Lit u → st i = stand i → Before i (u.line i) → Agree u →
      Tower (Function.update st i (dest i)) Lit (f i u))
    (ho : ∀ i u, OtherLines i u (f i u)) (hagree : ∀ i u, Agree u → Agree (f i u)) {is : List LineNo}
    (hn : is.Nodup) (h : Tower stand Lit s) (hb : ∀ i ∈ is, Before i (s.line i)) (ha : Agree s) :
    Tower (fun i => if i ∈ is then dest i else stand i) Lit (overLines f is s) := by
  suffices hgen : ∀ (st : LineNo → Post) (s : State), Tower st Lit s → (∀ i ∈ is, st i = stand i) →
      (∀ i ∈ is, Before i (s.line i)) → Agree s →
      Tower (fun i => if i ∈ is then dest i else st i) Lit (overLines f is s) from
    hgen stand s h (fun _ _ => rfl) hb ha
  clear h hb ha
  induction is with
  | nil => exact fun st s h _ _ _ => h
  | cons k rest ih =>
    intro st s h hst hb ha
    obtain ⟨hk, hrest⟩ := List.nodup_cons.mp hn
    have hne : ∀ i ∈ rest, i ≠ k := fun i hi e => hk (e ▸ hi)
    have hstep := hf k s st h (hst k (by simp)) (hb k (by simp)) ha
    have hend := ih hrest _ (f k s) hstep
      (fun i hi => by rw [Function.update_of_ne (hne i hi)]; exact hst i (by simp [hi]))
      (fun i hi => by rw [ho k s i (hne i hi)]; exact hb i (by simp [hi])) (hagree k s ha)
    refine hend.restand (fun i hi => ?_) fun _ => id
    by_cases hik : i = k
    · subst hik
      simpa [hk] using hi
    · simpa [hik] using hi

end tower

end Sys2Proof.Machine

/-! SUPPORT. The Start Arbiter, the end of a pour and the Source View keep what the station holds of its
lines. -/

namespace Sys2Proof.Machine

/-! ## Lines that flash, wait, begin and end a pour -/

section lines

variable {stand : LineNo → Post} {Lit : LineNo → Prop} {s t : State} {i : LineNo} {w : Post} {l : Line}

/-- A refusal flashes a configured line (R6). -/
theorem Tower.flashes (h : Tower stand Lit s) (hf : Flashes i (s.line i) s t)
    (hc : (stand i).configured = true) : Tower stand Lit t := by
  obtain ⟨⟨hline, hlamp⟩, hother, honly⟩ := hf
  exact h.stays hline (fun _ => hlamp) hother honly (by decide)
    ((h.fits i).congr rfl rfl rfl rfl rfl fun hn => by simp [hc] at hn) rfl Iff.rfl

/-- A line of the list leaves it for a state without wait and pour (R12). -/
theorem Tower.withdrawn (h : Tower stand Lit s) {ps : List Part}
    (hline : (t.line i).sansLamp = l.sansLamp) (hlamp : (t.line i).lamp = lampPattern t i)
    (hother : OtherLines i s t) (hstarts : t.starts = s.starts.filter fun e => e.line != i)
    (honly : Only ps s t) (hps : ∀ p ∈ [Part.config, .pours, .journal, .sources, .cool, .clean], p ∉ ps)
    (hw : (s.line i).state = .waiting) (hst : l.state ∉ [LineState.waiting, .pouring, .afterRun])
    (hfits : w.fits l) : Tower (Function.update stand i w) Lit t := by
  simp only [List.mem_cons, List.not_mem_nil, or_false, not_or] at hst
  obtain ⟨hwaiting, hpouring, hafter⟩ := hst
  have hjournal : t.journal = s.journal := honly .journal (hps _ (by decide))
  have hpours : t.pours = s.pours := honly .pours (hps _ (by decide))
  have hclean : t.clean = s.clean := honly .clean (hps _ (by decide))
  have hmem : ∀ j, j ∈ t.starts.map StartEntry.line ↔ j ≠ i ∧ j ∈ s.starts.map StartEntry.line := by
    intro j
    simp only [hstarts, List.mem_map, List.mem_filter, bne_iff_ne]
    exact ⟨fun ⟨e, ⟨he, hne⟩, hj⟩ => ⟨hj ▸ hne, e, he, hj⟩, fun ⟨hne, e, he, hj⟩ =>
      ⟨e, ⟨he, hj ▸ hne⟩, hj⟩⟩
  refine h.change (fun _ _ => id) hline (fun _ => hlamp) hother
    (.of_only honly ⟨hps _ (by decide), hps _ (by decide), hps _ (by decide)⟩) hfits ?_ ?_ ?_ ?_ ?_
    fun j hj => by rw [hmem]; exact and_iff_right hj
  · have hin : l.inPour = false := by simp [Line.inPour, hpouring, hafter]
    have hs : (s.line i).inPour = false := by simp [Line.inPour, hw]
    rw [hpours, hin, hs]
  · rw [hjournal, hpours, hclean]; exact h.reserved
  · rw [hjournal]; exact h.room
  · rw [hstarts]
    exact h.nodup.sublist (List.filter_sublist.map _)
  · rw [hmem]
    exact iff_of_false hwaiting fun hi => hi.1 rfl

/-- The same with refusal (R12). -/
theorem Tower.refused (h : Tower stand Lit s) {st : LineState} (he : EntryRefused i st s t)
    (hw : (s.line i).state = .waiting) (hst : st ∉ [LineState.waiting, .pouring, .afterRun])
    (hfits : w.fits { s.line i with state := st, flashFrom := some s.now }) :
    Tower (Function.update stand i w) Lit t := by
  obtain ⟨⟨hline, hlamp⟩, hother, hstarts, honly⟩ := he
  exact h.withdrawn hline hlamp hother hstarts honly (by decide) hw hst hfits

/-- The same with the line going to READY. -/
theorem Tower.refused_ready (h : Tower stand Lit s) (he : EntryRefused i .ready s t)
    (hw : (s.line i).state = .waiting) : Tower stand Lit t := by
  have hr := h.refused (w := stand i) he hw (by simp)
    ((fits_standing (.inl rfl)).mpr ((fits_standing (.inr hw)).mp (h.fits i)))
  rwa [Function.update_eq_self] at hr

/-- A READY line waits (R9). -/
theorem Tower.parked (h : Tower stand Lit s) {e : StartEntry} (he : e.line = i)
    (hs : (s.line i).state = .ready) (hp : Parked i (s.line i) e s t) : Tower stand Lit t := by
  obtain ⟨⟨hline, hlamp⟩, hother, hstarts, honly⟩ := hp
  have hjournal : t.journal = s.journal := honly .journal (by simp)
  have hpours : t.pours = s.pours := honly .pours (by simp)
  have hclean : t.clean = s.clean := honly .clean (by simp)
  have hnot : i ∉ s.starts.map StartEntry.line := fun hi => by
    have hw := (h.waiting i).mpr hi
    simp [hs] at hw
  have hmap : t.starts.map StartEntry.line = s.starts.map StartEntry.line ++ [i] := by
    rw [hstarts, List.map_append, List.map_singleton, he]
  have hmoved := h.change (w := stand i) (fun _ _ => id) hline (fun _ => hlamp) hother
    (.of_only honly (by simp))
    ((fits_standing (.inr rfl)).mpr ((fits_standing (.inl hs)).mp (h.fits i)))
    (by rw [hpours, inPour_of_state hs]; rfl) (by rw [hjournal, hpours, hclean]; exact h.reserved)
    (by rw [hjournal]; exact h.room)
    (by rw [hmap]; exact List.nodup_append.mpr ⟨h.nodup, List.nodup_singleton i,
      fun a ha b hb => by rw [List.mem_singleton.mp hb]; exact fun e => hnot (e ▸ ha)⟩)
    (by rw [hmap]; simp) fun j hj => by rw [hmap]; simp [hj]
  rwa [Function.update_eq_self] at hmoved

/-- A READY line, or one whose entry leaves the list, begins a pour where the journal has room (R10,
R66). -/
theorem Tower.admitted (h : Tower stand Lit s) {kind : StartKind} {rest : List StartEntry}
    (hs : (s.line i).state = .ready ∨ (s.line i).state = .waiting) (hu : ¬ Unstartable s i)
    (hh : ¬ Held s) (hnodup : (rest.map StartEntry.line).Nodup)
    (hi : i ∉ rest.map StartEntry.line) (hrest : ∀ j, j ≠ i →
      (j ∈ rest.map StartEntry.line ↔ j ∈ s.starts.map StartEntry.line)) :
    Tower stand Lit (beginPour i kind { s with starts := rest }) := by
  obtain ⟨⟨hline, hlamp⟩, hother, hpours, hjournal, honly⟩ :=
    beginPour_spec i kind { s with starts := rest } hu
  rw [← beginPour_line_eq i kind { s with starts := rest } hu] at hline
  have hstarts : (beginPour i kind { s with starts := rest }).starts = rest := honly .starts (by simp)
  have hclean : (beginPour i kind { s with starts := rest }).clean = s.clean := honly .clean (by simp)
  have hreads : SameReads s (beginPour i kind { s with starts := rest }) :=
    .trans (t := { s with starts := rest }) ⟨fun _ => rfl, fun _ => rfl, rfl⟩
      (.of_only honly (by simp))
  have hroom : s.journal.records.length + s.journal.reserved < 64 := by
    by_contra hfull
    exact hh (.inr (.inl (not_lt.mp hfull)))
  have hout : (s.line i).inPour = false := by rcases hs with hs | hs <;> simp [Line.inPour, hs]
  obtain ⟨⟨-, hmark⟩, -, hrole, hconf, hup, hlock⟩ := (fits_standing hs).mp (h.fits i)
  have hmoved := h.change (w := stand i) (fun _ _ => id) hline (fun _ => hlamp) hother hreads
    ((fits_pouring rfl).mpr ⟨⟨_, rfl, rfl⟩, .inl ⟨hrole, hmark⟩, hconf, hup, hlock⟩)
    (by rw [hpours, hout]; rfl)
    (by
      rw [hjournal, hpours, hclean]
      show s.journal.reserved + 1 = s.pours + 1 + s.clean.slots
      have := h.reserved
      omega)
    (by
      rw [hjournal]
      show s.journal.records.length + (s.journal.reserved + 1) ≤ 64
      omega)
    (by rw [hstarts]; exact hnodup) (by rw [hstarts]; simp [hi])
    fun j hj => by rw [hstarts]; exact hrest j hj
  rwa [Function.update_eq_self] at hmoved

/-- A pour ends, and its line runs after (R19). -/
theorem tower_endPour (h : Tower stand Lit s) (reason : EndReason)
    (hs : (s.line i).state = .pouring) : Tower stand Lit (endPour i reason s) := by
  obtain ⟨⟨p, hp, -⟩, hmarks, hconf, -, hlock⟩ := (fits_pouring hs).mp (h.fits i)
  obtain ⟨⟨hline, hlamp⟩, hother, honly⟩ := endPour_spec i reason s p hp
  exact h.stays hline (fun _ => hlamp) hother honly (by decide)
    ((fits_afterRun rfl).mpr ⟨⟨_, reason, rfl, rfl⟩, hmarks, rfl, hconf, hlock⟩)
    (by rw [inPour_of_state hs]; rfl) (by simp [endedLine, hs])

theorem tower_endIfPouring (h : Tower stand Lit s) (reason : EndReason) :
    Tower stand Lit (endIfPouring i reason s) := by
  unfold endIfPouring
  split
  · next hs => exact tower_endPour h reason hs
  · exact h

end lines

/-! ## The Start Arbiter -/

section arbiter

variable {stand : LineNo → Post} {Lit : LineNo → Prop} {s : State} {i : LineNo}

/-- The walk serves WAITING lines alone (R14). -/
theorem tower_serve (h : Tower stand Lit s) : Tower stand Lit (serve s) := by
  suffices hgen : ∀ (es : List StartEntry) (s : State), s.starts = es → Tower stand Lit s →
      Tower stand Lit (serve s) from hgen s.starts s rfl h
  clear h
  intro es
  induction es with
  | nil =>
    intro s hs h
    rwa [serve_nil hs]
  | cons e rest ih =>
    intro s hs h
    have hw : (s.line e.line).state = .waiting := (h.waiting e.line).mpr (by simp [hs])
    by_cases hu : Unstartable s e.line
    · obtain ⟨hrest, heq⟩ := serve_refused hs h.nodup hu
      rw [heq]
      exact ih _ hrest (h.refused_ready (refuseEntry_spec e.line .ready s) hw)
    · by_cases hh : Held s
      · rwa [serve_held hs hu hh]
      · obtain ⟨hrest, heq⟩ := serve_admitted hs h.nodup hu hh
        rw [heq]
        have hnodup := h.nodup
        rw [hs, List.map_cons, List.nodup_cons] at hnodup
        exact ih _ hrest (h.admitted (.inr hw) hu hh hnodup.2 hnodup.1
          fun j hj => by simp [hs, hj])

theorem tower_parkOrRefuse (h : Tower stand Lit s) (kind : StartKind)
    (hs : (s.line i).state = .ready) : Tower stand Lit (parkOrRefuse i kind s) := by
  have hconf := (h.fits i).configured (by simp [hs])
  have hkey : ∀ k : Key, Tower stand Lit (parkOrRefuse i (Key.kind k) s) := by
    intro k
    by_cases h0 : s.cfg.holdWait = 0
    · exact h.flashes (parkOrRefuse_key_zero i k s h0) hconf
    · exact h.parked (i := i) rfl hs (parkOrRefuse_key i k s h0)
  cases kind with
  | handle => exact h.parked (i := i) rfl hs (parkOrRefuse_handle i s)
  | keyA => exact hkey .a
  | keyB => exact hkey .b

/-- A request on a READY line is refused, parked or admitted (R8, R9, R10). -/
theorem tower_request (h : Tower stand Lit s) (kind : StartKind) (hs : (s.line i).state = .ready) :
    Tower stand Lit (request i kind s) := by
  cases hr : refusedAtOnce s i with
  | true => exact h.flashes (request_refused kind hr) ((h.fits i).configured (by simp [hs]))
  | false =>
    by_cases hp : Held s ∨ s.starts ≠ []
    · rw [request_parked kind hr hp]
      exact tower_parkOrRefuse h kind hs
    · obtain ⟨hh, hstarts⟩ := not_or.mp hp
      have hstarts := not_not.mp hstarts
      have hu : ¬ Unstartable s i := fun hu => by
        simp [(refusedAtOnce_iff s i).mpr (.inr (.inr hu))] at hr
      have hn : stationHold s = false := by simpa using (stationHold_iff s).not.mpr hh
      have heq : request i kind s = beginPour i kind { s with starts := s.starts } := by
        simp [request, hr, hn, hstarts]
      rw [heq]
      exact h.admitted (.inl hs) hu hh h.nodup (by simp [hstarts]) fun _ _ => Iff.rfl

end arbiter

/-! ## The Source View -/

section sources

variable {stand : LineNo → Post} {L : Prop} {Lit : LineNo → Prop} {s : State} {i : LineNo}

/-- A lamp that follows is lit as it must be (R6). -/
theorem tower_relamp {Lit' : LineNo → Prop} (h : Tower stand Lit s)
    (hlit : ∀ j, j ≠ i → Lit' j → Lit j) : Tower stand Lit' (relamp i s) := by
  obtain ⟨hline, hlamp⟩ := relamp_line i s
  have honly := relamp_only i s
  have hmoved := h.change (w := stand i) hlit hline (fun _ => hlamp) (relamp_others i s)
    (.of_only honly (by simp)) (h.fits i) rfl h.reserved h.room h.nodup (h.waiting i)
    fun _ _ => Iff.rfl
  rwa [Function.update_eq_self] at hmoved

/-- The lamps of some lines follow: then those of all lines do, if those of the others did. -/
theorem tower_relamps {is : List LineNo} (h : Tower stand Lit s) (hlit : ∀ i, L → i ∉ is → Lit i) :
    Tower stand (fun _ => L) (overLines relamp is s) := by
  induction is generalizing s Lit with
  | nil => exact h.restand (fun _ => id) fun i hl => hlit i hl (by simp)
  | cons k rest ih =>
    rw [overLines_cons]
    refine ih (Lit := fun i => L ∧ i ∉ rest) (tower_relamp h fun j hj hl => ?_) fun _ hl hi => ⟨hl, hi⟩
    exact hlit j hl.1 (by simp [hj, hl.2])

/-- A source record changes: the lamps of the other sources' lines follow still (R6). -/
theorem tower_setSource (h : Tower stand (fun _ => L) s) (x : SourceNo) (r : SourceRec) :
    Tower stand (fun i => L ∧ i ∉ s.linesOn x) (s.setSource x r) := by
  refine ⟨h.fits, fun i ⟨hl, hi⟩ => ?_, h.pours, h.reserved, h.room, h.nodup, h.waiting⟩
  rw [setSource_line, h.lit i hl]
  cases hc : s.configured i with
  | false => simp [lampPattern, hc]
  | true =>
    have hne : (s.lineCfg i).source ≠ x := fun e => hi (by
      simp [State.linesOn, mem_allLines, hc, e])
    have hempty : (s.setSource x r).sourceEmpty i = s.sourceEmpty i := by
      simp only [State.sourceEmpty, setSource_lineCfg, source_setSource_ne s r hne]
    simp only [lampPattern, setSource_configured, setSource_line, hempty, setSource_cool]

/-- A source record changes in its figures, and not in its EMPTY status. -/
theorem tower_setFigures (h : Tower stand Lit s) (x : SourceNo) {r : SourceRec}
    (hr : r.empty = (s.source x).empty) : Tower stand Lit (s.setSource x r) := by
  refine h.of_same rfl ⟨fun _ => rfl, sourceEmpty_congr rfl fun y => ?_, rfl⟩ rfl rfl rfl rfl
  by_cases hy : y = x
  · subst hy; rw [source_setSource_same, hr]
  · rw [source_setSource_ne s r hy]

theorem tower_lowTest (h : Tower stand Lit s) (x : SourceNo) : Tower stand Lit (lowTest x s) := by
  unfold lowTest
  split
  · simp only
    split
    · exact (tower_setFigures (r := { s.source x with low := true }) h x rfl).of_only (raise_only _ _)
        (by decide)
    · exact h
  · exact h

/-- The entries of a source's lines leave the list (R86). -/
theorem tower_refuseSource (h : Tower stand Lit s) (x : SourceNo) :
    Tower stand Lit (refuseSource x s) := by
  refine overLines_keeps (P := Tower stand Lit) (Before := fun _ l => l.state = .waiting)
    (fun i u hu hw => hu.refused_ready (refuseEntry_spec i .ready u) hw)
    (fun i u => (refuseEntry_spec i .ready u).2.1) (h.nodup.filter _) h
    fun i hi => (h.waiting i).mpr (List.mem_of_mem_filter hi)

theorem linesOn_congr {s t : State} (h : t.config = s.config) (x : SourceNo) :
    t.linesOn x = s.linesOn x := by
  unfold State.linesOn
  exact List.filter_congr fun i _ => by rw [configured_congr h, lineCfg_congr h]

/-- EMPTY has its effects, once the lamps of the other sources' lines follow (R86). -/
theorem tower_emptyEffects {x : SourceNo} (h : Tower stand (fun i => L ∧ i ∉ s.linesOn x) s) :
    Tower stand (fun _ => L) (emptyEffects x s) := by
  have hreq : Only [.attn, .link] s (requestStatus (raise .sourceEmpty s)) :=
    ((raise_only _ s).mono (by simp)).trans ((requestStatus_only _).mono (by simp))
  have hu := tower_refuseSource (h.of_only hreq (by decide)) x
  have hcfg : (refuseSource x (requestStatus (raise .sourceEmpty s))).config = s.config :=
    (overLines_only (fun i s => (refuseEntry_spec i .ready s).2.2.2) _ _ .config (by simp)).trans
      (hreq .config (by simp))
  exact tower_relamps hu fun i hl hi => ⟨hl, linesOn_congr hcfg x ▸ hi⟩

theorem tower_setEmpty (h : Tower stand (fun _ => L) s) (x : SourceNo) :
    Tower stand (fun _ => L) (setEmpty x s) := by
  unfold setEmpty
  simp only
  split
  · exact h
  · exact tower_emptyEffects (tower_setSource h x _)

/-- A line that is not LOCKED has no lock to lose, or is OFF and held to none. -/
theorem fits_unlocked {w : Post} {l : Line} (h : w.fits l) (hs : l.state ≠ .locked) :
    w.fits { l with lock := .clear } := by
  unfold Post.fits at h ⊢
  cases hst : l.state <;> simp_all [Line.empty, Post.marks]

/-- A line gives up its lock, and leaves LOCKED for READY (R2). -/
theorem tower_clearLock (h : Tower stand Lit s) : Tower stand Lit (clearLock i s) := by
  obtain ⟨⟨hline, hlamp⟩, hother, honly⟩ := clearLock_spec i s
  by_cases hs : (s.line i).state = .locked
  · rw [if_pos hs] at hline
    obtain ⟨hempty, hvalve, hrole, hconf, hup, -⟩ := (fits_locked hs).mp (h.fits i)
    exact h.stays hline (fun _ => hlamp) hother honly (by decide)
      ((fits_standing (.inl rfl)).mpr ⟨hempty, hvalve, hrole, hconf, hup, rfl⟩)
      (by rw [inPour_of_state hs]; rfl) (by simp [hs])
  · rw [if_neg hs] at hline
    exact h.stays hline (fun _ => hlamp) hother honly (by decide) (fits_unlocked (h.fits i) hs) rfl Iff.rfl

/-- A new generation lifts the foam lock of a line, and withdraws the foam end of its pour (R25). -/
theorem tower_liftFoam (h : Tower stand Lit s) : Tower stand Lit (liftFoam i s) := by
  have h1 : Tower stand Lit (if (s.line i).lock = .foamOut then clearLock i s else s) := by
    split
    · exact tower_clearLock h
    · exact h
  unfold liftFoam
  simp only
  split
  · next p hs hp =>
    have hclear : (s.line i).lock = .clear := by
      obtain ⟨-, -, -, -, hlock⟩ := (fits_afterRun hs).mp (h.fits i)
      exact hlock
    have hsame : (if (s.line i).lock = .foamOut then clearLock i s else s) = s := by simp [hclear]
    rw [hsame]
    split
    · next hr =>
      obtain ⟨-, hmarks, hvalve, hconf, hlock⟩ := (fits_afterRun hs).mp (h.fits i)
      refine h.writes ?_ rfl rfl rfl
      exact (fits_afterRun (by exact hs)).mpr ⟨⟨_, _, rfl, hr⟩, hmarks, hvalve, hconf, hlock⟩
    · exact h
  · exact h1

/-- A new generation of a source relights the lamps of its lines (R89, R90). -/
theorem tower_newGeneration (h : Tower stand (fun _ => L) s) (x : SourceNo) (gen : BitVec 8)
    (full : Nat) (e : Bool) : Tower stand (fun _ => L) (newGeneration x gen full e s) := by
  have h1 := tower_setSource h x { gen, full, own := 0, carry := 0, empty := e, low := false }
  have h2 := overLines_always (f := liftFoam) (fun i u hu => tower_liftFoam (i := i) hu) (s.linesOn x) h1
  have hcfg : (overLines liftFoam (s.linesOn x) (s.setSource x
      { gen, full, own := 0, carry := 0, empty := e, low := false })).config = s.config :=
    (overLines_only liftFoam_only _ _) .config (by simp)
  exact tower_lowTest (tower_relamps h2 fun i hl hi => ⟨hl, linesOn_congr hcfg x ▸ hi⟩) x

end sources

end Sys2Proof.Machine

/-! SUPPORT. The events of the tower and the Source View keep the whole invariant of the station. -/

namespace Sys2Proof.Machine

/-! ## The whole invariant -/

section sound

variable {L : Prop} {s t : State} {ps : List Part} {stand : LineNo → Post} {Lit : LineNo → Prop}

/-- Where the lines stand is read off the station, the configuration and the recipe. -/
theorem post_congr (hstation : t.station = s.station) (hconfig : ∀ i, t.configured i = s.configured i)
    (hrun : t.clean.runState = s.clean.runState) (hjob : t.clean.job = s.clean.job)
    (hout : t.clean.out.faucets = s.clean.out.faucets) : t.post = s.post := by
  funext i
  have hsel : t.selected = s.selected := by simp only [State.selected, hjob]
  simp only [State.post, hstation, hconfig, hsel, Cleaning.role, hrun, hout]

/-- Where no line stands in a RUNNING station, the list is empty (R11, R29). -/
theorem Tower.starts_nil (h : Tower stand Lit s) (hup : ∀ i, (stand i).up = false) : s.starts = [] := by
  rw [← List.map_eq_nil_iff (f := StartEntry.line), List.eq_nil_iff_forall_not_mem]
  intro i hi
  have hw := (h.waiting i).mpr hi
  obtain ⟨-, -, -, -, hu, -⟩ := (fits_standing (.inr hw)).mp (h.fits i)
  simp [hup i] at hu

/-- The tower of a new state and its run's fields. -/
theorem Sound.of_tower (ht : Tower t.post (fun _ => L) t)
    (hidle : t.clean.runState = .idle ↔ t.clean.job = none)
    (hrunning : t.clean.runState = .running ↔ t.clean.progress.isSome = true)
    (hslots : t.clean.slots = match t.clean.job with
      | some j => 1 + (linesOf j.lines).length
      | none => 0)
    (hconfig : t.station = .unconfigured ↔ t.config = none)
    (hshut : t.station ≠ .running → t.clean.runState = .idle) : Sound L t :=
  ⟨ht, ⟨hidle, hrunning, hslots⟩, hconfig, fun hs => ⟨hshut hs, ht.starts_nil fun i => by
    simpa [State.post] using hs⟩⟩

/-- The tower changes, and the recipe, the station and the configuration do not. -/
theorem Sound.keep (h : Sound L s) (ht : Tower s.post (fun _ => L) t) (hf : Only ps s t)
    (hps : Part.station ∉ ps ∧ Part.config ∉ ps ∧ Part.clean ∉ ps) : Sound L t := by
  have hstation : t.station = s.station := hf .station hps.1
  have hconfig : t.config = s.config := hf .config hps.2.1
  have hclean : t.clean = s.clean := hf .clean hps.2.2
  obtain ⟨-, ⟨hidle, hrunning, hslots⟩, hcfg, hshut⟩ := h
  refine .of_tower ?_ ?_ ?_ ?_ ?_ ?_
  · rwa [post_congr hstation (configured_congr hconfig) (by rw [hclean]) (by rw [hclean])
      (by rw [hclean])]
  · rw [hclean]; exact hidle
  · rw [hclean]; exact hrunning
  · rw [hclean]; exact hslots
  · rw [hstation, hconfig]; exact hcfg
  · rw [hstation, hclean]; exact fun hs => (hshut hs).1

/-- Nothing of the invariant changes but, it may be, figures of the recipe and the gain of a line. -/
theorem Sound.of_same (h : Sound L s) (hlines : t.lines = s.lines) (hreads : SameReads s t)
    (hstarts : t.starts = s.starts) (hpours : t.pours = s.pours) (hjournal : t.journal = s.journal)
    (hstation : t.station = s.station) (hconfig : t.config = none ↔ s.config = none)
    (hrun : t.clean.runState = s.clean.runState) (hjob : t.clean.job = s.clean.job)
    (hslots : t.clean.slots = s.clean.slots)
    (hprogress : t.clean.progress.isSome = s.clean.progress.isSome)
    (hout : t.clean.out.faucets = s.clean.out.faucets) : Sound L t := by
  obtain ⟨htower, ⟨hidle, hrunning, hsl⟩, hcfg, hshut⟩ := h
  refine .of_tower ?_ ?_ ?_ ?_ ?_ ?_
  · rw [post_congr hstation hreads.configured hrun hjob hout]
    exact htower.of_same hlines hreads hstarts hpours hjournal hslots
  · rw [hrun, hjob]; exact hidle
  · rw [hrun, hprogress]; exact hrunning
  · rw [hslots, hjob]; exact hsl
  · rw [hstation, hconfig]; exact hcfg
  · rw [hstation, hrun]; exact fun hs => (hshut hs).1

/-- The parts of the state that the whole invariant reads. -/
def stationParts : List Part := .lines :: .station :: towerParts

theorem Sound.of_only (h : Sound L s) (hf : Only ps s t) (hps : ∀ p ∈ stationParts, p ∉ ps) :
    Sound L t :=
  h.keep (h.tower.of_only hf fun p hp => hps p (by
      simp only [stationParts, List.mem_cons] at hp ⊢
      rcases hp with hp | hp
      · exact .inl hp
      · exact .inr (.inr hp)))
    hf ⟨hps _ (by decide), hps _ (by decide), hps _ (by decide)⟩

/-- The recipe changes in none of the fields that the invariant reads. -/
theorem Sound.cleans (h : Sound L s) {f : Cleaning → Cleaning}
    (hrun : (f s.clean).runState = s.clean.runState) (hjob : (f s.clean).job = s.clean.job)
    (hslots : (f s.clean).slots = s.clean.slots)
    (hprogress : (f s.clean).progress.isSome = s.clean.progress.isSome)
    (hout : (f s.clean).out.faucets = s.clean.out.faucets) : Sound L (modClean f s) :=
  h.of_same rfl ⟨fun _ => rfl, fun _ => rfl, rfl⟩ rfl rfl rfl rfl Iff.rfl hrun hjob hslots hprogress hout

theorem sound_raise (h : Sound L s) (f : AttnFlag) : Sound L (raise f s) :=
  h.of_only (raise_only f s) (by decide)

theorem sound_modLink (h : Sound L s) (f : Link → Link) : Sound L (modLink f s) :=
  h.of_only (modLink_only f s) (by decide)

theorem sound_requestStatus (h : Sound L s) : Sound L (requestStatus s) :=
  h.of_only (requestStatus_only s) (by decide)

theorem sound_selectFrame (h : Sound L s) : Sound L (selectFrame s) :=
  h.of_only (selectFrame_only s) (by decide)

theorem sound_serve (h : Sound L s) : Sound L (serve s) :=
  h.keep (tower_serve h.tower) (serve_only s) (by simp)

end sound

/-! ## The Source View -/

section sources

variable {L : Prop} {s : State} {x : SourceNo}

theorem sound_setEmpty (h : Sound L s) (x : SourceNo) : Sound L (setEmpty x s) :=
  h.keep (tower_setEmpty h.tower x) (setEmpty_only x s) (by simp)

theorem sound_newGeneration (h : Sound L s) (x : SourceNo) (gen : BitVec 8) (full : Nat) (e : Bool) :
    Sound L (newGeneration x gen full e s) :=
  h.keep (tower_newGeneration h.tower x gen full e) (newGeneration_only x gen full e s) (by simp)

theorem sound_lowTest (h : Sound L s) (x : SourceNo) : Sound L (lowTest x s) :=
  h.keep (tower_lowTest h.tower x) (lowTest_only x s) (by simp)

theorem sound_setFigures (h : Sound L s) (x : SourceNo) {r : SourceRec}
    (hr : r.empty = (s.source x).empty) : Sound L (s.setSource x r) :=
  h.keep (tower_setFigures h.tower x hr) (setSource_only s x r) (by simp)

theorem sound_adopt (h : Sound L s) (gen : BitVec 8) (full : Nat) (e : Bool) :
    Sound L (adopt x gen full e s) := by
  have hg := sound_newGeneration h x gen full e
  unfold adopt
  simp only
  split
  · exact hg.keep (tower_emptyEffects (hg.tower.restand (fun _ => id) fun _ hl => hl.1))
      (emptyEffects_only x _) (by simp)
  · exact hg

theorem sound_takeChange (h : Sound L s) (b : ChangeBody) : Sound L (takeChange b s) := by
  unfold takeChange
  split
  · simp only
    split
    · exact sound_adopt h _ _ _
    · exact sound_lowTest (sound_setFigures (r := { s.source _ with full := b.full.toNat }) h _ rfl) _
    · exact h
  · exact h

theorem sound_carryStep (h : Sound L s) (stored new : Option LinkEntry) :
    Sound L (carryStep x stored new s) := by
  unfold carryStep
  simp only
  split
  · split
    · exact sound_setFigures h x (by rfl)
    · exact h
  · exact h

theorem sound_equalStep (h : Sound L s) (new : Option LinkEntry) : Sound L (equalStep x new s) := by
  unfold equalStep
  simp only
  split
  · next e =>
    split
    · have hfull : Sound L (if (s.source x).full = 0
          then s.setSource x { s.source x with full := e.full.toNat } else s) := by
        split
        · exact sound_setFigures h x (by rfl)
        · exact h
      split
      · exact sound_setEmpty hfull x
      · exact hfull
    · exact h
  · exact h

theorem sound_processSource (h : Sound L s) (stored new : List LinkEntry) (x : SourceNo) :
    Sound L (processSource stored new x s) := by
  unfold processSource
  simp only
  split
  · split
    · exact sound_adopt h _ _ _
    · exact sound_equalStep (sound_carryStep h _ _) _
  · exact sound_carryStep h _ _

/-- One operation on several sources. -/
theorem sound_foldl {f : State → SourceNo → State} (hf : ∀ x s, Sound L s → Sound L (f s x))
    (xs : List SourceNo) (h : Sound L s) : Sound L (xs.foldl f s) := by
  induction xs generalizing s with
  | nil => exact h
  | cons x rest ih => exact ih (hf x s h)

theorem sound_processEntries (h : Sound L s) (stored new : List LinkEntry) :
    Sound L (processEntries stored new s) :=
  sound_foldl (fun x _ hu => sound_processSource hu stored new x) _ h

theorem sound_lowTests (h : Sound L s) (stored new : List LinkEntry) :
    Sound L (lowTests stored new s) :=
  sound_foldl (fun x _ hu => sound_lowTest hu x) _ h

end sources

/-! ## The events of the tower -/

section tower

variable {L : Prop} {s t : State} {i : LineNo} {l : Line}

/-- A write of a line that the invariant does not see. -/
theorem Sound.writes (h : Sound L s) (hfits : (s.post i).fits l) (hstate : l.state = (s.line i).state)
    (hflash : l.flashFrom = (s.line i).flashFrom) (hlamp : l.lamp = (s.line i).lamp) :
    Sound L (s.setLine i l) :=
  h.keep (h.tower.writes hfits hstate hflash hlamp) (setLine_only s i l) (by simp)

/-- A write of a line in figures that the invariant does not read. -/
theorem Sound.unseen (h : Sound L s) (hstate : l.state = (s.line i).state)
    (hlock : l.lock = (s.line i).lock) (hpour : l.pour = (s.line i).pour)
    (hmark : l.cleanMark = (s.line i).cleanMark) (hvalve : l.valve = (s.line i).valve)
    (hflash : l.flashFrom = (s.line i).flashFrom) (hlamp : l.lamp = (s.line i).lamp) :
    Sound L (s.setLine i l) :=
  h.writes ((h.tower.fits i).congr hstate hlock hpour hmark hvalve fun _ => hflash) hstate hflash hlamp

theorem Sound.configured (h : Sound L s) (hs : (s.line i).state ≠ .off) : s.configured i = true :=
  (h.tower.fits i).configured hs

theorem sound_refuseFlash (h : Sound L s) (hc : s.configured i = true) : Sound L (refuseFlash i s) :=
  h.keep (h.tower.flashes (refuseFlash_spec i s) hc) (refuseFlash_spec i s).2.2 (by simp)

theorem request_only (i : LineNo) (kind : StartKind) (s : State) :
    Only [.lines, .starts, .pours, .journal] s (request i kind s) := by
  have hflash := (refuseFlash_spec i s).2.2
  have hpark : ∀ e, Only [.lines, .starts] s (park i kind e s) := fun e => (park_spec i kind e s).2.2.2
  unfold request
  split
  · exact hflash.mono (by simp)
  · split
    · cases kind with
      | handle => exact (hpark none).mono (by simp)
      | keyA =>
        simp only [parkOrRefuse]
        split
        · exact hflash.mono (by simp)
        · exact (hpark _).mono (by simp)
      | keyB =>
        simp only [parkOrRefuse]
        split
        · exact hflash.mono (by simp)
        · exact (hpark _).mono (by simp)
    · exact (beginPour_only i kind s).mono (by simp)

theorem sound_request (h : Sound L s) (kind : StartKind) (hs : (s.line i).state = .ready) :
    Sound L (request i kind s) :=
  h.keep (tower_request h.tower kind hs) (request_only i kind s) (by simp)

theorem sound_request_refused (h : Sound L s) (kind : StartKind) (hc : s.configured i = true)
    (hr : refusedAtOnce s i = true) : Sound L (request i kind s) :=
  h.keep (h.tower.flashes (request_refused kind hr) hc) (request_only i kind s) (by simp)

theorem sound_refuseEntry_ready (h : Sound L s) (hw : (s.line i).state = .waiting) :
    Sound L (refuseEntry i .ready s) :=
  h.keep (h.tower.refused_ready (refuseEntry_spec i .ready s) hw) (refuseEntry_spec i .ready s).2.2.2
    (by simp)

/-- A line whose entry is in the list waits. -/
theorem Sound.waiting_of_any (h : Sound L s) {f : StartEntry → Bool}
    (ha : (s.starts.any fun e => e.line == i && f e) = true) : (s.line i).state = .waiting := by
  obtain ⟨e, he, hf⟩ := List.any_eq_true.mp ha
  simp only [Bool.and_eq_true, beq_iff_eq] at hf
  exact (h.tower.waiting i).mpr (List.mem_map.mpr ⟨e, he, hf.1⟩)

theorem sound_endPour (h : Sound L s) (reason : EndReason) (hs : (s.line i).state = .pouring) :
    Sound L (endPour i reason s) := by
  obtain ⟨⟨p, hp, -⟩, -⟩ := (fits_pouring hs).mp (h.tower.fits i)
  exact h.keep (tower_endPour h.tower reason hs) (endPour_spec i reason s p hp).2.2 (by simp)

theorem sound_endIfPouring (h : Sound L s) (reason : EndReason) :
    Sound L (endIfPouring i reason s) :=
  h.keep (tower_endIfPouring h.tower reason) (endIfPouring_others i reason s).2 (by simp)

theorem sound_pressHandle (h : Sound L s) (hc : s.configured i = true) :
    Sound L (pressHandle i s) := by
  unfold pressHandle
  split
  · exact h
  · split
    case h_5 hs => exact sound_request h _ hs
    case h_6 | h_7 | h_8 => exact h
    all_goals exact sound_refuseFlash h hc

/-- The entry of a released handle leaves the list, and its line is READY (R5, R12). -/
theorem sound_withdraw (h : Sound L s) (hw : (s.line i).state = .waiting) :
    Sound L (setState i .ready (removeStart i s)) := by
  obtain ⟨⟨hline, hlamp⟩, hother, honly⟩ := setState_spec i .ready (removeStart i s)
  have hon : Only [.lines, .starts] s (setState i .ready (removeStart i s)) :=
    ((removeStart_only i s).mono (by simp)).trans (honly.mono (by simp))
  have ht := h.tower.withdrawn (w := s.post i) hline hlamp hother (honly .starts (by simp)) hon
    (by decide) hw (by simp) ((fits_standing (.inl rfl)).mpr ((fits_standing (.inr hw)).mp (h.tower.fits i)))
  rw [Function.update_eq_self] at ht
  exact h.keep ht hon (by simp)

theorem sound_releaseHandle (h : Sound L s) : Sound L (releaseHandle i s) := by
  unfold releaseHandle
  split
  · exact h
  · split
    · split
      · exact sound_withdraw h ‹_›
      · exact h
    · split
      · exact sound_endPour h _ ‹_›
      · exact h
    · exact h

theorem sound_pressKey (h : Sound L s) (k : Key) (hc : s.configured i = true) :
    Sound L (pressKey i k s) := by
  unfold pressKey
  split
  case h_5 hs => exact sound_request h _ hs
  case h_6 =>
    split
    · exact h.unseen rfl rfl rfl rfl rfl rfl rfl
    · exact h
  case h_7 | h_8 => exact h
  all_goals exact sound_refuseFlash h hc

/-! ## Pulses and the ends of a pour -/

/-- A pulse counted leaves the end of a pour as it is (R36). -/
theorem countPulse_endReason (foam : Bool) (p : PourCtx) :
    (countPulse foam p).endReason = p.endReason := by
  unfold countPulse
  split <;> rfl

/-- The pour of a line goes on with other figures and the same end (R16). -/
theorem Post.fits.pours {w : Post} {p q : PourCtx} (h : w.fits l) (hp : l.pour = some p)
    (hq : q.endReason = p.endReason) {l' : Line} (hl : l'.pour = some q)
    (hstate : l'.state = l.state) (hlock : l'.lock = l.lock) (hmark : l'.cleanMark = l.cleanMark)
    (hvalve : l'.valve = l.valve) : w.fits l' := by
  have hmarks : w.marks l' ↔ w.marks l := by simp only [Post.marks, hmark]
  cases hs : l.state with
  | pouring =>
    obtain ⟨⟨p', hp', hr⟩, hm, hrest⟩ := (fits_pouring hs).mp h
    obtain rfl : p = p' := Option.some.inj (hp.symm.trans hp')
    exact (fits_pouring (hstate.trans hs)).mpr ⟨⟨q, hl, hq.trans hr⟩, hmarks.mpr hm, hlock ▸ hrest⟩
  | afterRun =>
    obtain ⟨⟨p', r, hp', hr⟩, hm, hv, hc, hk⟩ := (fits_afterRun hs).mp h
    obtain rfl : p = p' := Option.some.inj (hp.symm.trans hp')
    exact (fits_afterRun (hstate.trans hs)).mpr
      ⟨⟨q, r, hl, hq.trans hr⟩, hmarks.mpr hm, hvalve.trans hv, hc, hlock.trans hk⟩
  | _ => simp [Post.fits, hs, Line.empty, hp] at h

/-- The figures of a pour are written (R16, R36). -/
theorem sound_figures (h : Sound L s) {p q : PourCtx} (hp : (s.line i).pour = some p)
    (hq : q.endReason = p.endReason) (consec : Nat) (interval : Option Nat) :
    Sound L (s.setLine i { s.line i with
      pour := some q, consecFoam := consec, intervalFrom := interval }) := by
  refine h.writes ?_ rfl rfl rfl
  exact (h.tower.fits i).pours hp hq (by rfl) rfl rfl rfl rfl

/-- A pulse of a pour is counted, and may end it and set EMPTY (R17, R36, R86). -/
theorem sound_pourPulse (h : Sound L s) {p : PourCtx} (hp : (s.line i).pour = some p) :
    Sound L (Machine.pourPulse i p s) := by
  have hcount := countPulse_endReason (isFoam (s.lineCfg i) p (pulseInterval (s.line i) s.now)) p
  unfold Machine.pourPulse
  simp only
  split
  · next hs =>
    rw [beq_iff_eq] at hs
    have hs1 := sound_figures h hp (q := { countPulse (isFoam (s.lineCfg i) p
      (pulseInterval (s.line i) s.now)) p with noFlowFrom := s.now }) hcount
    split
    · exact sound_setEmpty (sound_endPour (hs1 _ _) _ (by rw [line_setLine_same, hs])) _
    · exact sound_endPour (hs1 _ _) _ (by rw [line_setLine_same, hs])
    · exact hs1 _ _
  · exact sound_figures h hp hcount _ _

/-- A line takes a lock and a state, and its lamp follows (R2). -/
theorem setState_setLock_spec (i : LineNo) (st : LineState) (r : LockReason) (s : State) :
    LineBecomes (setState i st (setLock i r s)) i { s.line i with lock := r, state := st } ∧
      OtherLines i s (setState i st (setLock i r s)) ∧
      Only [.lines, .attn] s (setState i st (setLock i r s)) := by
  obtain ⟨hlock, hother, -, honly⟩ := setLock_spec i r s
  obtain ⟨hset, hother', honly'⟩ := setState_spec i st (setLock i r s)
  rw [hlock] at hset
  exact ⟨hset, hother.trans hother', honly.trans (honly'.mono (by simp))⟩

/-- A READY line locks, and so does a WAITING one, whose entry is refused (R2, R24). -/
theorem sound_leak (h : Sound L s) :
    ((s.line i).state = .ready → Sound L (setState i .locked (setLock i .leak s))) ∧
    ((s.line i).state = .waiting → Sound L (refuseEntry i .locked (setLock i .leak s))) := by
  have hlocked : (s.line i).state = .ready ∨ (s.line i).state = .waiting → ∀ f,
      (s.post i).fits { s.line i with lock := .leak, state := .locked, flashFrom := f } := by
    intro hs f
    obtain ⟨hempty, hvalve, hrole, hconf, hup, -⟩ := (fits_standing hs).mp (h.tower.fits i)
    exact (fits_locked rfl).mpr ⟨hempty, hvalve, hrole, hconf, hup, by simp⟩
  constructor
  · intro hs
    obtain ⟨⟨hline, hlamp⟩, hother, honly⟩ := setState_setLock_spec i .locked .leak s
    exact h.keep (h.tower.stays hline (fun _ => hlamp) hother honly (by decide)
      (hlocked (.inl hs) _) (by rw [inPour_of_state hs]; rfl) (by simp [hs])) honly (by simp)
  · intro hs
    obtain ⟨hlock, hotherl, -, honlyl⟩ := setLock_spec i .leak s
    obtain ⟨⟨hline, hlamp⟩, hother, hstarts, honly⟩ := refuseEntry_spec i .locked (setLock i .leak s)
    rw [hlock] at hline
    have hon := honlyl.mono (qs := [.lines, .starts, .attn]) (by simp) |>.trans (honly.mono (by simp))
    have ht := h.tower.withdrawn (w := s.post i) hline hlamp (hotherl.trans hother)
      (hstarts.trans (by rw [honlyl .starts (by simp)])) hon (by decide) hs (by simp)
      (hlocked (.inr hs) _)
    rw [Function.update_eq_self] at ht
    exact h.keep ht hon (by simp)

theorem sound_creepPulse (h : Sound L s) : Sound L (Machine.creepPulse i s) := by
  have hcrept : Sound L (s.setLine i (creptLine (s.line i))) :=
    h.unseen rfl rfl rfl rfl rfl rfl rfl
  have hst : ((s.setLine i (creptLine (s.line i))).line i).state = (s.line i).state := by
    rw [line_setLine_same]; rfl
  by_cases hlimit : (s.lineCfg i).leakLimit = 0 ∨
      satInc max16 (s.line i).creep < (s.lineCfg i).leakLimit
  · rw [creepPulse_below hlimit]; exact hcrept
  · obtain ⟨h0, hle⟩ := not_or.mp hlimit
    by_cases hready : (s.line i).state = .ready
    · rw [creepPulse_ready h0 (not_lt.mp hle) hready]
      exact (sound_leak hcrept).1 (hst.trans hready)
    · by_cases hwaiting : (s.line i).state = .waiting
      · rw [creepPulse_waiting h0 (not_lt.mp hle) hwaiting]
        exact (sound_leak hcrept).2 (hst.trans hwaiting)
      · rw [creepPulse_counts hready hwaiting]; exact hcrept

end tower

end Sys2Proof.Machine

/-! SUPPORT. The cleaning run, from its step outputs to its end, keeps what the station holds of its lines
(R27, R67, R163, R173, R182, R183). -/

namespace Sys2Proof.Machine

/-! ## Faucets and outputs -/

section outputs

variable {stand : LineNo → Post} {Lit : LineNo → Prop} {L : Prop} {s : State} {i : LineNo} {w : Post}
  {l : Line}

/-- A line that is being cleaned is CLEANING (R27). -/
theorem Post.fits.cleaning (h : w.fits l) {b : Bool} (hr : w.role = .cleaning b) :
    l.state = .cleaning := by
  unfold Post.fits at h
  cases hs : l.state <;> simp_all [Post.marks]

theorem selected_nodup (s : State) : s.selected.Nodup := by
  unfold State.selected
  split
  · exact linesOf_nodup _
  · exact List.nodup_nil

/-- The lines of a run, its selected ones in a role. -/
def posted (stand : LineNo → Post) (is : List LineNo) (r : Role) (i : LineNo) : Post :=
  if i ∈ is then { stand i with role := r } else stand i

/-- The faucets of lines being cleaned open or close together (R163). -/
theorem tower_applyFaucets (h : Tower stand Lit s) (on : Bool)
    (hsel : ∀ i ∈ s.selected, ∃ b, (stand i).role = .cleaning b) :
    Tower (posted stand s.selected (.cleaning on)) Lit (applyFaucets on s) := by
  refine h.several (dest := fun i => { stand i with role := .cleaning on })
    (Before := fun i _ => i ∈ s.selected) (Agree := fun _ => True) (fun i u st hu hst hi _ => ?_)
    (fun i u => setLine_others u i _) (fun _ _ => id) (selected_nodup s) (fun _ => id) trivial
  obtain ⟨b, hb⟩ := hsel i hi
  have hfits := hu.fits i
  rw [hst] at hfits
  have hc := hfits.cleaning hb
  obtain ⟨hempty, -, hconf, hup, hlock⟩ := (fits_cleaning hc).mp hfits
  refine hu.writes_moves ((fits_cleaning (by exact hc)).mpr
    ⟨hempty, ⟨on, rfl, fun hv => ?_⟩, hconf, hup, hlock⟩) rfl rfl rfl
  cases on with
  | true => rfl
  | false => exact absurd rfl hv

theorem tower_cool (h : Tower stand Lit s) (k : Cooling) (hk : k.warmHold = s.cool.warmHold) :
    Tower stand Lit { s with cool := k } :=
  h.of_same rfl ⟨fun _ => rfl, fun _ => rfl, hk⟩ rfl rfl rfl rfl

theorem tower_beginCoolOff (h : Tower stand Lit s) : Tower stand Lit (beginCoolOff s) := by
  have hk := tower_cool h { s.cool with
    coolOff := true, demand := 0, grant := 0, starved := false, gly := false } rfl
  unfold beginCoolOff
  simp only
  split
  · exact h
  · split
    · exact tower_serve hk
    · exact hk

theorem cool_only (s : State) (k : Cooling) : Only [.cool] s { s with cool := k } := by
  intro p hp; cases p <;> simp_all [Part.same]

theorem beginCoolOff_only (s : State) :
    Only [.cool, .lines, .starts, .pours, .journal] s (beginCoolOff s) := by
  have hk := cool_only s { s.cool with
    coolOff := true, demand := 0, grant := 0, starved := false, gly := false }
  unfold beginCoolOff
  simp only
  split
  · exact Only.refl _ s
  · split
    · exact (hk.mono (by simp)).trans ((serve_only _).mono (by simp))
    · exact hk.mono (by simp)

theorem endCoolOff_only (s : State) : Only [.cool] s (endCoolOff s) := cool_only s _

theorem applyFaucets_only (on : Bool) (s : State) : Only [.lines] s (applyFaucets on s) :=
  overLines_only (fun i s => setLine_only s i _) _ s

/-- The outputs of a step are in force, and its faucets open or closed (R162, R163). -/
theorem tower_applyOutputs (h : Tower stand Lit s) (o : Outputs)
    (hsel : ∀ i ∈ s.selected, ∃ b, (stand i).role = .cleaning b) :
    Tower (posted stand s.selected (.cleaning o.faucets)) Lit (applyOutputs o s) := by
  have hf := tower_applyFaucets (h.cleans (f := fun c => { c with out := o }) rfl) o.faucets hsel
  unfold applyOutputs
  simp only
  split
  · exact tower_beginCoolOff hf
  · exact tower_cool hf _ rfl

theorem applyOutputs_spec (o : Outputs) (s : State) :
    (applyOutputs o s).clean = { s.clean with out := o } ∧
      Only [.cool, .lines, .starts, .pours, .journal, .clean] s (applyOutputs o s) := by
  obtain ⟨u, hu⟩ : ∃ u, u = modClean (fun c => { c with out := o }) s := ⟨_, rfl⟩
  have hsu : Only [.clean] s u := by rw [hu]; exact modClean_only _ s
  have hut : Only [.cool, .lines, .starts, .pours, .journal] u (applyOutputs o s) := by
    have hf : Only [.lines] u (applyFaucets o.faucets u) := applyFaucets_only _ _
    unfold applyOutputs
    rw [← hu]
    simp only
    split
    · exact (hf.mono (by simp)).trans (beginCoolOff_only _)
    · exact (hf.mono (by simp)).trans ((endCoolOff_only _).mono (by simp))
  exact ⟨(hut .clean (by simp)).trans (by rw [hu]; rfl), (hsu.mono (by simp)).trans (hut.mono (by simp))⟩

/-- The recipe of a step that has been entered (R162). -/
theorem enterStep_spec (n runFrom : Nat) (s : State) :
    (enterStep n runFrom s).clean = { s.clean with
      progress := some { step := n, phase := .dwell, stepFrom := s.now, runFrom },
      stepCounts := Vector.replicate 8 0,
      flags := { s.clean.flags with volume := (s.stepAt n).pulses = 0 },
      out := (s.stepAt n).outputs } ∧
    Only [.cool, .lines, .starts, .pours, .journal, .clean] s (enterStep n runFrom s) := by
  obtain ⟨hclean, honly⟩ := applyOutputs_spec (s.stepAt n).outputs (modClean (fun c => { c with
    progress := some { step := n, phase := .dwell, stepFrom := s.now, runFrom },
    stepCounts := Vector.replicate 8 0,
    flags := { c.flags with volume := (s.stepAt n).pulses = 0 } }) s)
  exact ⟨hclean, ((modClean_only _ s).mono (by simp)).trans honly⟩

/-- A run that is RUNNING enters a step, its lines being CLEANING (R162). -/
theorem sound_entered (h : Tower stand (fun _ => L) s) (hrun : s.clean.runState = .running)
    (hjob : s.clean.job ≠ none)
    (hslots : s.clean.slots = match s.clean.job with
      | some j => 1 + (linesOf j.lines).length
      | none => 0)
    (hconfig : s.station = .unconfigured ↔ s.config = none) (hstation : s.station = .running)
    (hstand : ∀ i, ∃ b, stand i = ⟨s.configured i, true,
      if i ∈ s.selected then .cleaning b else .free⟩) (n runFrom : Nat) :
    Sound L (enterStep n runFrom s) := by
  obtain ⟨hclean, honly⟩ := enterStep_spec n runFrom s
  have hst : (enterStep n runFrom s).station = s.station := honly .station (by simp)
  have hcfg : (enterStep n runFrom s).config = s.config := honly .config (by simp)
  have hsel : (enterStep n runFrom s).selected = s.selected := by simp only [State.selected, hclean]
  have ht := tower_applyOutputs (h.cleans (f := fun c => { c with
    progress := some { step := n, phase := .dwell, stepFrom := s.now, runFrom },
    stepCounts := Vector.replicate 8 0,
    flags := { c.flags with volume := (s.stepAt n).pulses = 0 } }) rfl) (s.stepAt n).outputs
    (fun i hi => by
      obtain ⟨b, hb⟩ := hstand i
      exact ⟨b, by rw [hb]; exact if_pos hi⟩)
  have hpost : (enterStep n runFrom s).post =
      posted stand s.selected (.cleaning (s.stepAt n).outputs.faucets) := by
    funext i
    obtain ⟨b, hb⟩ := hstand i
    by_cases hi : i ∈ s.selected <;>
      simp [State.post, posted, hb, hsel, hi, hst, hstation, configured_congr hcfg, Cleaning.role,
        hclean, hrun]
  refine .of_tower (by rw [hpost]; exact ht) ?_ ?_ ?_ ?_ ?_
  · rw [hclean]; simp [hrun, hjob]
  · rw [hclean]; simp [hrun]
  · rw [hclean]; exact hslots
  · rw [hst, hcfg]; exact hconfig
  · rw [hst]; exact fun hne => absurd hstation hne

/-- A run exists only in a RUNNING station (R29). -/
theorem Shape.station_running (h : Shape s) (hr : s.clean.runState ≠ .idle) : s.station = .running := by
  by_contra hs
  exact hr (h.shut hs).1

theorem sound_enterStep (h : Sound L s) (hrun : s.clean.runState = .running) (n runFrom : Nat) :
    Sound L (enterStep n runFrom s) := by
  have hstation := h.shape.station_running (by simp [hrun])
  refine sound_entered h.tower hrun (fun hj => ?_) h.shape.slots h.shape.config hstation
    (fun i => ⟨s.clean.out.faucets, ?_⟩) n runFrom
  · simp [h.shape.idle.mpr hj] at hrun
  · simp [State.post, Cleaning.role, hrun, hstation]

end outputs

/-! ## The records of a run, and its slots -/

section slots

variable {stand : LineNo → Post} {Lit : LineNo → Prop} {s t : State} {i : LineNo}

/-- The records of a run spend its slots, and its lines lose at most their creep counts (R67, R73). -/
theorem Tower.wroteRun (h : Tower stand Lit s) {rs : List Record} (hw : WroteRun rs s t)
    (hlines : ∀ i, ∃ c, t.line i = { s.line i with creep := c }) (hlen : rs.length ≤ s.clean.slots) :
    Tower stand Lit t := by
  obtain ⟨hjournal, hclean, hdrew, -, honly⟩ := hw
  have hpours : t.pours = s.pours := honly .pours (by simp)
  have hstarts : t.starts = s.starts := honly .starts (by simp)
  have hcool : t.cool = s.cool := honly .cool (by simp)
  have hreads : SameReads s t := ⟨configured_congr (honly .config (by simp)),
    sourceEmpty_congr (honly .config (by simp)) fun x => by rw [(hdrew x).1], by rw [hcool]⟩
  have hres := h.reserved
  have hroom := h.room
  have hline : ∀ i, (t.line i).state = (s.line i).state ∧
      (t.line i).flashFrom = (s.line i).flashFrom ∧ (t.line i).lamp = (s.line i).lamp := fun i => by
    obtain ⟨c, hc⟩ := hlines i
    rw [hc]
    exact ⟨rfl, rfl, rfl⟩
  refine h.of_lines (fun i => ?_) (fun i => (hline i).1) (fun i => (hline i).2.1)
    (fun i => (hline i).2.2) hreads hstarts hpours ?_ ?_
  · obtain ⟨c, hc⟩ := hlines i
    rw [hc]
    exact (h.fits i).congr rfl rfl rfl rfl rfl fun _ => rfl
  · rw [hjournal, hpours, hclean]
    show s.journal.reserved - rs.length = s.pours + (s.clean.slots - rs.length)
    omega
  · rw [hjournal]
    show (s.journal.records ++ rs).length + (s.journal.reserved - rs.length) ≤ 64
    rw [List.length_append]
    omega

/-- The slots left are returned, and the list is served (R67, R78). -/
theorem tower_returnSlots (h : Tower stand Lit s) : Tower stand Lit (returnSlots s) := by
  have hreturned : Tower stand Lit (modClean (fun c => { c with slots := 0 })
      { s with journal := { s.journal with reserved := s.journal.reserved - s.clean.slots } }) := by
    have hres := h.reserved
    have hroom := h.room
    refine ⟨h.fits, h.lit, h.pours, ?_, ?_, h.nodup, h.waiting⟩
    · show s.journal.reserved - s.clean.slots = s.pours + 0
      omega
    · show s.journal.records.length + (s.journal.reserved - s.clean.slots) ≤ 64
      omega
  unfold returnSlots
  simp only
  split
  · exact tower_serve hreturned
  · exact hreturned

theorem returnSlots_frame (s : State) : (returnSlots s).clean = { s.clean with slots := 0 } ∧
    Only [.lines, .starts, .pours, .journal, .clean] s (returnSlots s) := by
  obtain ⟨u, hu⟩ : ∃ u, u = modClean (fun c => { c with slots := 0 })
    { s with journal := { s.journal with reserved := s.journal.reserved - s.clean.slots } } := ⟨_, rfl⟩
  have hsu : Only [.journal, .clean] s u := by
    rw [hu]; intro p hp; cases p <;> simp_all [Part.same]
  have hut : Only [.lines, .starts, .pours, .journal] u (returnSlots s) := by
    unfold returnSlots
    simp only
    rw [← hu]
    split
    · exact serve_only u
    · exact Only.refl _ u
  exact ⟨(hut .clean (by simp)).trans (by rw [hu]; rfl),
    (hsu.mono (by simp)).trans (hut.mono (by simp))⟩

end slots

/-! ## The end of a run -/

section ends

variable {stand : LineNo → Post} {Lit : LineNo → Prop} {L : Prop} {s t : State} {i : LineNo}

/-- Where the lines stand once their run has released them (R27, R184). -/
def released (stand : LineNo → Post) (s : State) (i : LineNo) : Post :=
  if i ∈ s.selected then { stand i with up := s.station == .running, role := .free } else stand i

/-- A run has ended: its lines are released, and nothing of it is left (R182, R183). -/
structure RunGone (stand : LineNo → Post) (Lit : LineNo → Prop) (s t : State) : Prop where
  tower : Tower (released stand s) Lit t
  idle : t.clean.runState = .idle
  job : t.clean.job = none
  progress : t.clean.progress = none
  slots : t.clean.slots = 0
  station : t.station = s.station
  config : t.config = s.config

/-- A line held by the run, its valve closed, is released (R27, R184). -/
theorem tower_releaseLine (h : Tower stand Lit s) (failed : Bool)
    (hs : (s.line i).state = .reserved ∨ (s.line i).state = .cleaning)
    (hv : (s.line i).valve = .closed) :
    Tower (Function.update stand i { stand i with up := s.station == .running, role := .free }) Lit
      (releaseLine failed i s) := by
  obtain ⟨⟨hline, hlamp⟩, hother, -, honly⟩ := releaseLine_spec failed i s
  have hheld : (s.line i).empty ∧ (stand i).configured = true := by
    rcases hs with hs | hs
    · obtain ⟨hempty, -, -, hconf, -⟩ := (fits_reserved hs).mp (h.fits i)
      exact ⟨hempty, hconf⟩
    · obtain ⟨hempty, -, hconf, -⟩ := (fits_cleaning hs).mp (h.fits i)
      exact ⟨hempty, hconf⟩
  have hout : (s.line i).inPour = false := by rcases hs with hs | hs <;> rw [inPour_of_state hs] <;> rfl
  have hnot : (s.line i).state ≠ .waiting := by rcases hs with hs | hs <;> simp [hs]
  have hstate : (releasedLine s failed (s.line i)).state =
      if s.station ≠ .running then .off else if failed then .locked else .ready := rfl
  have hres : (releasedLine s failed (s.line i)).state = .off ∨
      (releasedLine s failed (s.line i)).state = .locked ∨
      (releasedLine s failed (s.line i)).state = .ready := by
    rw [hstate]; split
    · exact .inl rfl
    · split
      · exact .inr (.inl rfl)
      · exact .inr (.inr rfl)
  refine h.moves hline (fun _ => hlamp) hother honly (by decide) ?_ ?_ ?_
  · by_cases hr : s.station = .running
    · cases failed with
      | true =>
        exact (fits_locked (by simp [hstate, hr])).mpr
          ⟨hheld.1, hv, rfl, hheld.2, by simp [hr], by simp [releasedLine]⟩
      | false =>
        exact (fits_standing (.inl (by simp [hstate, hr]))).mpr
          ⟨hheld.1, hv, rfl, hheld.2, by simp [hr], rfl⟩
    · exact (fits_off (by simp [hstate, hr])).mpr
        ⟨hheld.1, hv, rfl, fun _ => by simpa using hr, fun hc => by simp [hheld.2] at hc⟩
  · rw [hout]
    rcases hres with hres | hres | hres <;> rw [inPour_of_state hres] <;> rfl
  · refine iff_of_false ?_ hnot
    rcases hres with hres | hres | hres <;> simp [hres]

/-- The run returns to IDLE, its figures and the links apart (R182, R183). -/
theorem RunGone.of_tower {u : State} {f : Cleaning → Cleaning} {ps : List Part}
    (h : Tower (released stand s) Lit u) (hf : Only ps (modClean f u) t)
    (hps : ∀ p ∈ stationParts, p ∉ ps) (hidle : (f u.clean).runState = .idle)
    (hjob : (f u.clean).job = none) (hprogress : (f u.clean).progress = none)
    (hslots : (f u.clean).slots = 0) (huslots : u.clean.slots = 0) (hstation : u.station = s.station)
    (hconfig : u.config = s.config) : RunGone stand Lit s t := by
  have hclean : t.clean = f u.clean := hf .clean (hps _ (by decide))
  refine ⟨(h.cleans (by rw [hslots, huslots])).of_only hf fun p hp => hps p ?_, by rw [hclean, hidle],
    by rw [hclean, hjob], by rw [hclean, hprogress], by rw [hclean, hslots],
    (hf .station (hps _ (by decide))).trans hstation, (hf .config (hps _ (by decide))).trans hconfig⟩
  simp only [stationParts, List.mem_cons] at hp ⊢
  rcases hp with hp | hp
  · exact .inl hp
  · exact .inr (.inr hp)

/-- A run ends from RUNNING (R182). -/
theorem endRunning_gone (h : Tower stand Lit s) (result : RunResult) {j : Job} {p : Progress}
    (hjob : s.clean.job = some j) (hprog : s.clean.progress = some p)
    (hslots : s.clean.slots = 1 + (linesOf j.lines).length)
    (hsel : ∀ i ∈ s.selected, ∃ b, (stand i).role = .cleaning b) :
    RunGone stand Lit s (endRunning result s) := by
  have hselected : s.selected = linesOf j.lines := by simp only [State.selected, hjob]
  -- the outputs go off, with the faucets
  have hoff : Tower (posted stand s.selected (.cleaning false)) Lit (runOff s) :=
    tower_cool (tower_applyFaucets (h.cleans (f := fun c => { c with
      progress := none, flowFrom := none, out := .none }) rfl) false hsel) _ rfl
  obtain ⟨hoclean, -, hoin, hoout, hoonly⟩ := runOff_spec s
  -- the records are written
  obtain ⟨hwrote, hwin, hwout⟩ := runWritten_spec result p hjob
  have hwritten : Tower (posted stand s.selected (.cleaning false)) Lit (runWritten result j p s) := by
    refine hoff.wroteRun hwrote (fun i => ?_) ?_
    · by_cases hi : i ∈ linesOf j.lines
      · exact ⟨0, by rw [hwin i hi, hoin i (hselected ▸ hi)]⟩
      · exact ⟨(s.line i).creep, by rw [hwout i hi, hoout i (hselected ▸ hi)]⟩
    · rw [hoclean]
      exact (runRecords_length s j result p.step).trans hslots.ge
  -- the slots are returned
  have hreturned := tower_returnSlots hwritten
  obtain ⟨hrclean, hronly⟩ := returnSlots_frame (runWritten result j p s)
  obtain ⟨-, hwclean, -, -, hwonly⟩ := hwrote
  have hstation : (returnSlots (runWritten result j p s)).station = s.station :=
    (hronly .station (by simp)).trans ((hwonly .station (by simp)).trans (hoonly .station (by simp)))
  have hconfig : (returnSlots (runWritten result j p s)).config = s.config :=
    (hronly .config (by simp)).trans ((hwonly .config (by simp)).trans (hoonly .config (by simp)))
  have hcl : (returnSlots (runWritten result j p s)).clean.progress = none ∧
      (returnSlots (runWritten result j p s)).clean.slots = 0 := by
    rw [hrclean, hwclean, hoclean]
    exact ⟨rfl, rfl⟩
  rw [endRunning_eq result hjob hprog]
  generalize returnSlots (runWritten result j p s) = u at hreturned hstation hconfig hcl
  -- the lines are released
  have hreleased : Tower (released stand s) Lit
      (overLines (releaseLine (result != .completed)) (linesOf j.lines) u) := by
    have hs := hreturned.several (f := releaseLine (result != .completed))
      (dest := fun i => { stand i with up := s.station == .running, role := .free })
      (Before := fun i _ => i ∈ s.selected) (Agree := fun v => v.station = s.station)
      (fun i v st hv hst hi hagree => by
        have hpost : st i = { stand i with role := .cleaning false } := by
          rw [hst, posted, if_pos hi]
        have hfits := hv.fits i
        rw [hpost] at hfits
        have hclean := hfits.cleaning rfl
        obtain ⟨-, ⟨b, hb, hvalve⟩, -⟩ := (fits_cleaning hclean).mp hfits
        have hb : b = false := by simpa using hb.symm
        have hr := tower_releaseLine hv (result != .completed) (.inr hclean)
          (by by_contra hne; simp [hb] at hvalve; exact hne hvalve)
        rw [hpost, hagree] at hr
        exact hr)
      (fun i v => (releaseLine_spec _ i v).2.1)
      (fun i v hv => ((releaseLine_spec _ i v).2.2.2 .station (by simp)).trans hv)
      (linesOf_nodup j.lines) (fun i hi => hselected ▸ hi) hstation
    refine hs.restand (fun i hi => ?_) fun _ => id
    unfold released
    unfold posted at hi
    rw [hselected] at hi ⊢
    by_cases hm : i ∈ linesOf j.lines
    · simpa only [hm, if_true] using hi
    · simpa only [hm, if_false] using hi
  have hfolded := overLines_only (fun i s => (releaseLine_spec (result != .completed) i s).2.2.2)
    (linesOf j.lines) u
  generalize overLines (releaseLine (result != .completed)) (linesOf j.lines) u = v at *
  have hvclean : v.clean = u.clean := hfolded .clean (by simp)
  have hlinks : Only [.link, .attn] (modClean (fun c => { c with
      beerOut := Vector.replicate 8 0, stepCounts := Vector.replicate 8 0,
      flags := { c.flags with flow := false, volume := false },
      runState := .idle, job := none, age := 0 }) v) (runOver v) :=
    ((requestStatus_only _).mono (by simp)).trans ((raise_only _ _).mono (by simp))
  exact .of_tower hreleased hlinks (by decide) rfl rfl (by rw [hvclean]; exact hcl.1)
    (by rw [hvclean]; exact hcl.2) (by rw [hvclean]; exact hcl.2)
    ((hfolded .station (by simp)).trans hstation) ((hfolded .config (by simp)).trans hconfig)

end ends

end Sys2Proof.Machine

/-! SUPPORT. The early end of a run, its steps, its claim and its start keep the invariant of the station
(R162 to R170, R174 to R186). -/

namespace Sys2Proof.Machine

section early

variable {stand : LineNo → Post} {Lit : LineNo → Prop} {L : Prop} {s t : State} {i : LineNo}

/-- What a line that a run prepares or holds can be (R27). -/
theorem Post.fits.selected {w : Post} {l : Line} (h : w.fits l)
    (hr : w.role = .preparing ∨ w.role = .claiming) :
    (l.state = .reserved ∧ l.cleanMark = false) ∨
      ((l.state = .pouring ∨ l.state = .afterRun) ∧ l.cleanMark = true) := by
  have hnot : ∀ b, w.role ≠ .cleaning b ∧ w.role ≠ .free := by rcases hr with hr | hr <;> simp [hr]
  cases hs : l.state with
  | reserved => exact .inl ⟨rfl, ((fits_reserved hs).mp h).1.2⟩
  | pouring =>
    obtain ⟨-, hm, -⟩ := (fits_pouring hs).mp h
    exact .inr ⟨.inl rfl, (hm.resolve_left fun hm => (hnot true).2 hm.1).2⟩
  | afterRun =>
    obtain ⟨-, hm, -⟩ := (fits_afterRun hs).mp h
    exact .inr ⟨.inr rfl, (hm.resolve_left fun hm => (hnot true).2 hm.1).2⟩
  | cleaning =>
    obtain ⟨-, ⟨b, hb, -⟩, -⟩ := (fits_cleaning hs).mp h
    exact absurd hb (hnot b).1
  | off => exact absurd ((fits_off hs).mp h).2.2.1 (hnot true).2
  | ready => exact absurd ((fits_standing (.inl hs)).mp h).2.2.1 (hnot true).2
  | waiting => exact absurd ((fits_standing (.inr hs)).mp h).2.2.1 (hnot true).2
  | locked => exact absurd ((fits_locked hs).mp h).2.2.1 (hnot true).2

/-- A selected line loses its mark, or is released (R183). -/
theorem tower_withdrawOrRelease (h : Tower stand Lit s)
    (hr : (stand i).role = .preparing ∨ (stand i).role = .claiming)
    (hp : (s.line i).state = .pouring → s.station = .running) :
    Tower (Function.update stand i { stand i with up := s.station == .running, role := .free }) Lit
      (withdrawOrRelease i s) := by
  rcases (h.fits i).selected hr with ⟨hs, hm⟩ | ⟨hs, hm⟩
  · have e : withdrawOrRelease i s = releaseLine false i s := by simp [withdrawOrRelease, hm, hs]
    rw [e]
    exact tower_releaseLine h false (.inl hs) ((fits_reserved hs).mp (h.fits i)).2.1
  · have e : withdrawOrRelease i s = s.setLine i { s.line i with cleanMark := false } := by
      simp [withdrawOrRelease, hm]
    rw [e]
    refine h.writes_moves ?_ rfl rfl rfl
    rcases hs with hs | hs
    · obtain ⟨hpour, -, hconf, -, hlock⟩ := (fits_pouring hs).mp (h.fits i)
      exact (fits_pouring (by exact hs)).mpr
        ⟨hpour, .inl ⟨rfl, rfl⟩, hconf, by simpa using hp hs, hlock⟩
    · obtain ⟨hpour, -, hvalve, hconf, hlock⟩ := (fits_afterRun hs).mp (h.fits i)
      exact (fits_afterRun (by exact hs)).mpr ⟨hpour, .inl ⟨rfl, rfl⟩, hvalve, hconf, hlock⟩

/-- A run ends from PREPARING or CLAIMING (R183). -/
theorem endEarly_gone (h : Tower stand Lit s) {j : Job} (hjob : s.clean.job = some j)
    (hslots : s.clean.slots = 1 + (linesOf j.lines).length) (hprog : s.clean.progress = none)
    (hsel : ∀ i ∈ s.selected, (stand i).role = .preparing ∨ (stand i).role = .claiming)
    (hp : ∀ i, (s.line i).state = .pouring → s.station = .running) :
    RunGone stand Lit s (endEarly s) := by
  have hselected : s.selected = linesOf j.lines := by simp only [State.selected, hjob]
  have e : endEarly s = earlyOver (s.clean.runState == .claiming) (returnSlots (writeClean j .aborted
      none (overLines withdrawOrRelease (linesOf j.lines) s))) := by
    simp only [endEarly, hjob]; rfl
  -- the lines are let go
  have hreleased : Tower (released stand s) Lit (overLines withdrawOrRelease (linesOf j.lines) s) := by
    rw [← hselected]
    exact h.several (f := withdrawOrRelease)
      (dest := fun i => { stand i with up := s.station == .running, role := .free })
      (Before := fun i l => i ∈ s.selected ∧ l = s.line i) (Agree := fun v => v.station = s.station)
      (fun i v st hv hst ⟨hi, hl⟩ hagree => by
        have hw := tower_withdrawOrRelease hv (by rw [hst]; exact hsel i hi)
          (by rw [hl, hagree]; exact hp i)
        rwa [hst, hagree] at hw)
      (fun i v => (withdrawOrRelease_spec i v).2.1)
      (fun i v hv => ((withdrawOrRelease_spec i v).2.2 .station (by simp)).trans hv)
      (selected_nodup s) (fun i hi => ⟨hi, rfl⟩) rfl
  have hfolded := overLines_only (fun i s => (withdrawOrRelease_spec i s).2.2) (linesOf j.lines) s
  rw [e]
  generalize overLines withdrawOrRelease (linesOf j.lines) s = u at *
  have huclean : u.clean = s.clean := hfolded .clean (by simp)
  -- the record is written, and the slots are returned
  obtain ⟨hwrote, hwonly⟩ := writeClean_spec j .aborted none u
  have hreturned := tower_returnSlots (hreleased.wroteRun hwrote
    (fun i => ⟨(u.line i).creep, by rw [line_congr (hwonly .lines (by simp))]⟩)
    (by rw [huclean, hslots]; simp))
  obtain ⟨-, hwclean, -⟩ := hwrote
  obtain ⟨hrclean, hronly⟩ := returnSlots_frame (writeClean j .aborted none u)
  have hstation : (returnSlots (writeClean j .aborted none u)).station = s.station :=
    (hronly .station (by simp)).trans ((hwonly .station (by simp)).trans (hfolded .station (by simp)))
  have hconfig : (returnSlots (writeClean j .aborted none u)).config = s.config :=
    (hronly .config (by simp)).trans ((hwonly .config (by simp)).trans (hfolded .config (by simp)))
  have hcl : (returnSlots (writeClean j .aborted none u)).clean.progress = none ∧
      (returnSlots (writeClean j .aborted none u)).clean.slots = 0 := by
    rw [hrclean, hwclean, huclean]
    exact ⟨hprog, rfl⟩
  generalize returnSlots (writeClean j .aborted none u) = v at *
  have hlinks : Only [.link, .attn] (goIdle v) (earlyOver (s.clean.runState == .claiming) v) := by
    unfold earlyOver
    refine Only.trans ?_ ((raise_only _ _).mono (by simp))
    split
    · exact (requestStatus_only _).mono (by simp)
    · exact Only.refl _ _
  exact .of_tower hreturned hlinks (by decide) rfl rfl hcl.1 hcl.2 hcl.2 hstation hconfig

/-- A run that is not IDLE ends, whatever its state (R185, R186). The lines stand with the roles of the
run. -/
theorem abortRun_gone (h : Tower stand Lit s) (hs : RunShape s)
    (hroles : ∀ i, (stand i).role = (s.post i).role)
    (hp : ∀ i, (s.line i).state = .pouring → s.station = .running) :
    RunGone stand Lit s (abortRun s) := by
  obtain ⟨hidle, hrunning, hslots⟩ := hs
  have hnone : s.clean.runState ≠ .running → s.clean.progress = none := fun hne => by
    by_contra hsome
    exact hne (hrunning.mpr (Option.isSome_iff_ne_none.mpr hsome))
  have hrole : ∀ i ∈ s.selected, (stand i).role = s.clean.role := fun i hi => by
    rw [hroles]; exact if_pos hi
  unfold abortRun
  cases hr : s.clean.runState with
  | idle =>
    have hjob := hidle.mp hr
    have hsel : s.selected = [] := by simp only [State.selected, hjob]
    have hreleased : released stand s = stand := by funext i; simp [released, hsel]
    refine ⟨?_, hr, hjob, hnone (by simp [hr]), ?_, rfl, rfl⟩
    · rw [hreleased]; exact h
    · rw [hslots, hjob]
  | running =>
    obtain ⟨p, hprog⟩ := Option.isSome_iff_exists.mp (hrunning.mp hr)
    cases hjob : s.clean.job with
    | none => exact absurd (hidle.mpr hjob) (by simp [hr])
    | some j =>
      rw [hjob] at hslots
      exact endRunning_gone h .aborted hjob hprog hslots fun i hi =>
        ⟨s.clean.out.faucets, (hrole i hi).trans (by simp only [Cleaning.role, hr])⟩
  | preparing | claiming =>
    cases hjob : s.clean.job with
    | none => exact absurd (hidle.mpr hjob) (by simp [hr])
    | some j =>
      rw [hjob] at hslots
      exact endEarly_gone h hjob hslots (hnone (by simp [hr]))
        (fun i hi => by simp [hrole i hi, Cleaning.role, hr]) hp

end early

section run

variable {L : Prop} {s t : State} {i : LineNo}

/-- A run that ends in a station that stays as it was. -/
theorem Sound.runGone (h : Sound L s) (hg : RunGone s.post (fun _ => L) s t) : Sound L t := by
  obtain ⟨htower, hidle, hjob, hprogress, hslots, hstation, hconfig⟩ := hg
  have hsel : t.selected = [] := by simp only [State.selected, hjob]
  have hpost : t.post = released s.post s := by
    funext i
    by_cases hi : i ∈ s.selected <;>
      simp [State.post, released, hi, hsel, hstation, configured_congr hconfig]
  refine .of_tower (by rw [hpost]; exact htower) ?_ ?_ ?_ ?_ fun _ => hidle
  · exact iff_of_true hidle hjob
  · rw [hidle, hprogress]; simp
  · rw [hslots, hjob]
  · rw [hstation, hconfig]; exact h.shape.config

theorem sound_endRunning (h : Sound L s) (result : RunResult) (hr : s.clean.runState = .running) :
    Sound L (endRunning result s) := by
  obtain ⟨p, hprog⟩ := Option.isSome_iff_exists.mp (h.shape.running.mp hr)
  cases hjob : s.clean.job with
  | none => exact absurd (h.shape.idle.mpr hjob) (by simp [hr])
  | some j =>
    have hslots := h.shape.slots
    rw [hjob] at hslots
    refine h.runGone (endRunning_gone h.tower result hjob hprog hslots fun i hi => ?_)
    exact ⟨_, (post_cleaning s i _).mpr ⟨⟨hr, hi⟩, rfl⟩⟩

theorem sound_abortRun (h : Sound L s) : Sound L (abortRun s) := by
  refine h.runGone (abortRun_gone h.tower h.shape.toRunShape (fun _ => rfl) fun i hi => ?_)
  obtain ⟨-, -, -, hup, -⟩ := (fits_pouring hi).mp (h.tower.fits i)
  simpa [State.post] using hup

/-! ## The steps -/

theorem sound_takeNext (h : Sound L s) (hr : s.clean.runState = .running) (p : Progress) :
    Sound L (takeNext p s) := by
  unfold takeNext
  split
  · exact sound_enterStep h hr _ _
  · exact sound_endRunning h _ hr

theorem sound_takeFaultNext (h : Sound L s) (hr : s.clean.runState = .running) (p : Progress) :
    Sound L (takeFaultNext p s) := by
  unfold takeFaultNext
  split
  · exact sound_enterStep h hr _ _
  · exact sound_endRunning h _ hr

theorem sound_afterFlagChange (h : Sound L s) : Sound L (afterFlagChange s) := by
  unfold afterFlagChange
  split
  · next hr _ =>
    split
    · exact sound_takeNext h hr _
    · exact h
  · exact h

theorem sound_singleExpiry (h : Sound L s) (hr : s.clean.runState = .running) (p : Progress) :
    Sound L (singleExpiry p s) := by
  unfold singleExpiry
  split
  · exact sound_takeNext h hr p
  · exact sound_takeFaultNext h hr p

theorem sound_dwellExpires (h : Sound L s) (hr : s.clean.runState = .running) (p : Progress) :
    Sound L (dwellExpires p s) := by
  unfold dwellExpires
  simp only
  split
  · exact h
  · split
    · exact sound_singleExpiry h hr p
    · split
      · exact sound_takeNext h hr p
      · exact h.cleans rfl rfl rfl (h.shape.running.mp hr).symm rfl

theorem sound_limitExpires (h : Sound L s) (hr : s.clean.runState = .running) (p : Progress) :
    Sound L (limitExpires p s) := by
  unfold limitExpires
  simp only
  split
  · exact h
  · split
    · exact sound_takeFaultNext h hr p
    · split
      · exact sound_singleExpiry h hr p
      · exact h

/-- A step event acts on a run in RUNNING alone (R168). -/
theorem sound_stepEvent {f : Progress → State → State} (h : Sound L s)
    (hf : ∀ p, s.clean.runState = .running → Sound L (f p s)) : Sound L (stepEvent f s) := by
  unfold stepEvent
  split
  · exact hf _ ‹_›
  · exact h

theorem sound_cleaningPulse (h : Sound L s) (i : LineNo) (p : Progress) :
    Sound L (cleaningPulse i p s) := by
  unfold cleaningPulse
  simp only
  split
  · exact sound_afterFlagChange ((h.cleans rfl rfl rfl rfl rfl).cleans rfl rfl rfl rfl rfl)
  · exact (h.cleans rfl rfl rfl rfl rfl).cleans rfl rfl rfl rfl rfl

/-! ## The claim -/

/-- A line held for the claim is cleaned (R27, R179). -/
theorem tower_activate {stand : LineNo → Post} {Lit : LineNo → Prop} (h : Tower stand Lit s)
    (hr : (stand i).role = .claiming) :
    Tower (Function.update stand i { stand i with role := .cleaning false }) Lit (activate i s) := by
  have hs : (s.line i).state = .reserved := by
    rcases (h.fits i).selected (.inr hr) with ⟨hs, -⟩ | ⟨hs | hs, -⟩
    · exact hs
    · obtain ⟨-, hm, -⟩ := (fits_pouring hs).mp (h.fits i)
      simp [Post.marks, hr] at hm
    · obtain ⟨-, hm, -⟩ := (fits_afterRun hs).mp (h.fits i)
      simp [Post.marks, hr] at hm
  obtain ⟨hempty, hvalve, -, hconf, hup, hlock⟩ := (fits_reserved hs).mp (h.fits i)
  obtain ⟨⟨hline, hlamp⟩, hother, honly⟩ := setState_spec i .cleaning s
  have e : activate i s = setState i .cleaning s := by simp [activate, hs]
  rw [e]
  exact h.moves hline (fun _ => hlamp) hother honly (by decide)
    ((fits_cleaning rfl).mpr ⟨hempty, ⟨false, rfl, fun hv => absurd hvalve hv⟩, hconf, hup, hlock⟩)
    (by rw [inPour_of_state hs]; rfl) (by simp [hs])

theorem activate_frame (i : LineNo) (s : State) :
    OtherLines i s (activate i s) ∧ Only [.lines] s (activate i s) := by
  unfold activate
  split
  · exact (setState_spec i .cleaning s).2
  · exact ⟨OtherLines.refl i s, Only.refl _ s⟩

/-- The run enters RUNNING from CLAIMING (R179). -/
theorem sound_enterRunning (h : Sound L s) (hr : s.clean.runState = .claiming) :
    Sound L (enterRunning s) := by
  have hstation := h.shape.station_running (by simp [hr])
  unfold enterRunning
  split
  · next j hjob =>
    have hsel : s.selected = linesOf j.lines := by simp only [State.selected, hjob]
    obtain ⟨u, hu⟩ : ∃ u, u = overLines activate (linesOf j.lines)
      (modClean (fun c => { c with runState := .running }) s) := ⟨_, rfl⟩
    have hactive : Tower (posted s.post s.selected (.cleaning false)) (fun _ => L) u := by
      rw [hu, ← hsel]
      exact (h.tower.cleans (f := fun c => { c with runState := .running }) rfl).several (f := activate)
        (dest := fun i => { s.post i with role := .cleaning false })
        (Before := fun i _ => i ∈ s.selected) (Agree := fun _ => True)
        (fun i v st hv hst hi _ => by
          have ha := tower_activate hv (by rw [hst]; exact (post_claiming s i).mpr ⟨hr, hi⟩)
          rwa [hst] at ha)
        (fun i v => (activate_frame i v).1) (fun _ _ => id) (selected_nodup s) (fun _ => id) trivial
    have hsu : Only [.lines] (modClean (fun c => { c with runState := .running }) s) u := by
      rw [hu]; exact overLines_only (fun i v => (activate_frame i v).2) _ _
    simp only
    rw [← hu]
    obtain ⟨v, hv⟩ : ∃ v, v = modClean (fun c => { c with
      beerOut := Vector.replicate 8 0, flowFrom := none, flags := { c.flags with flow := false } })
      (requestStatus u) := ⟨_, rfl⟩
    have huv : Only [.link, .clean] u v := by
      rw [hv]
      exact ((requestStatus_only u).mono (by simp)).trans ((modClean_only _ _).mono (by simp))
    have hvclean : v.clean = { s.clean with
        runState := .running, beerOut := Vector.replicate 8 0, flowFrom := none,
        flags := { s.clean.flags with flow := false } } := by
      have hreq : (requestStatus u).clean = u.clean := requestStatus_only u .clean (by simp)
      have hucl : u.clean = { s.clean with runState := .running } := hsu .clean (by simp)
      rw [hv, modClean_clean, hreq, hucl]
    have hvtower : Tower (posted s.post s.selected (.cleaning false)) (fun _ => L) v := by
      rw [hv]
      exact (hactive.of_only (requestStatus_only u) (by decide)).cleans rfl
    have hvstation : v.station = s.station := (huv .station (by simp)).trans (hsu .station (by simp))
    have hvconfig : v.config = s.config := (huv .config (by simp)).trans (hsu .config (by simp))
    have hvsel : v.selected = s.selected := by simp only [State.selected, hvclean]
    rw [← hv]
    refine sound_entered hvtower (by rw [hvclean]) (by rw [hvclean]; simp [hjob])
      (by rw [hvclean]; exact h.shape.slots) (by rw [hvstation, hvconfig]; exact h.shape.config)
      (hvstation.trans hstation) (fun i => ⟨false, ?_⟩) _ _
    by_cases hi : i ∈ s.selected <;>
      simp [posted, State.post, hi, hvsel, configured_congr hvconfig, hstation]
  · exact h

theorem sound_evaluateClaim (h : Sound L s) : Sound L (evaluateClaim s) := by
  unfold evaluateClaim
  split
  · next hr =>
    simp only
    split
    · exact sound_enterRunning (h.cleans rfl rfl rfl rfl rfl) hr
    · exact h.cleans rfl rfl rfl rfl rfl
  · exact h

theorem sound_statusSuccess (h : Sound L s) : Sound L (statusSuccess s) := by
  unfold statusSuccess
  split
  · exact sound_evaluateClaim (h.cleans rfl rfl rfl rfl rfl)
  · exact h

/-! ## The start -/

/-- The run leaves PREPARING when no selected line pours: all are held (R176). -/
theorem sound_checkPrepared (h : Sound L s) : Sound L (checkPrepared s) := by
  by_cases hp : s.clean.runState = .preparing ∧ NonePouring s
  · obtain ⟨hr, hnone⟩ := hp
    rw [checkPrepared_claiming hr hnone]
    obtain ⟨u, hu⟩ : ∃ u, u = modClean (fun c => { c with
      runState := .claiming, age := 0, ahead := 0 }) s := ⟨_, rfl⟩
    have e : enterClaiming s = requestStatus u := by rw [hu]; rfl
    rw [e]
    refine sound_requestStatus (.of_tower ?_ ?_ ?_ ?_ ?_ ?_)
    · rw [hu]
      refine (h.tower.cleans (by rfl)).restand (fun i hi => ?_) fun _ => id
      by_cases hsel : i ∈ s.selected
      · have hpost : s.post i = ⟨s.configured i, s.station == .running, .preparing⟩ := by
          simp [State.post, hsel, Cleaning.role, hr]
        have hpost' : (modClean (fun c => { c with runState := .claiming, age := 0, ahead := 0 }) s).post i
            = ⟨s.configured i, s.station == .running, .claiming⟩ := by
          have hsel' : i ∈ (modClean (fun c => { c with
            runState := .claiming, age := 0, ahead := 0 }) s).selected := hsel
          simp [State.post, hsel', Cleaning.role]
        obtain ⟨hnp, hna⟩ := hnone i hsel
        have hs : (s.line i).state = .reserved := by
          rcases hi.selected (.inl (by rw [hpost])) with ⟨hs, -⟩ | ⟨hs | hs, -⟩
          · exact hs
          · exact absurd hs hnp
          · exact absurd hs hna
        obtain ⟨hempty, hvalve, -, hconf, hup, hlock⟩ := (fits_reserved hs).mp hi
        rw [hpost] at hconf hup
        rw [hpost']
        exact (fits_reserved hs).mpr ⟨hempty, hvalve, .inr rfl, hconf, hup, hlock⟩
      · have hpost : (modClean (fun c => { c with runState := .claiming, age := 0, ahead := 0 }) s).post i
            = s.post i := by
          have hsel' : i ∉ (modClean (fun c => { c with
            runState := .claiming, age := 0, ahead := 0 }) s).selected := hsel
          simp [State.post, hsel', hsel]
        rw [hpost]
        exact hi
    · rw [hu]
      have hj : s.clean.job ≠ none := fun hj => by simp [h.shape.idle.mpr hj] at hr
      simp [hj]
    · rw [hu]
      have hprog : s.clean.progress.isSome ≠ true := fun hsome => by
        simp [h.shape.running.mpr hsome] at hr
      simpa using hprog
    · rw [hu]; exact h.shape.slots
    · rw [hu]; exact h.shape.config
    · rw [hu]
      intro hne
      exact absurd (h.shape.station_running (by simp [hr])) hne
  · rw [checkPrepared_stays hp]
    exact h

/-- The reserve request on a line of a RUNNING station (R27, R175). -/
theorem tower_reserveLine {stand : LineNo → Post} {Lit : LineNo → Prop} (h : Tower stand Lit s)
    (hr : (stand i).role = .free) (hup : (stand i).up = true) (hs : (s.line i).state ≠ .off) :
    Tower (Function.update stand i { stand i with role := .preparing }) Lit (reserveLine i s) := by
  have hfits := h.fits i
  cases hst : (s.line i).state with
  | off => exact absurd hst hs
  | ready =>
    obtain ⟨hempty, hvalve, -, hconf, -, hlock⟩ := (fits_standing (.inl hst)).mp hfits
    obtain ⟨⟨hline, hlamp⟩, hother, honly⟩ := setState_spec i .reserved s
    have e : reserveLine i s = setState i .reserved s := by simp [reserveLine, hst]
    rw [e]
    exact h.moves hline (fun _ => hlamp) hother honly (by decide)
      ((fits_reserved rfl).mpr ⟨hempty, hvalve, .inl rfl, hconf, hup, hlock⟩)
      (by rw [inPour_of_state hst]; rfl) (by simp [hst])
  | waiting =>
    obtain ⟨hempty, hvalve, -, hconf, -, hlock⟩ := (fits_standing (.inr hst)).mp hfits
    have e : reserveLine i s = refuseEntry i .reserved s := by simp [reserveLine, hst]
    rw [e]
    exact h.refused (refuseEntry_spec i .reserved s) hst (by simp)
      ((fits_reserved rfl).mpr ⟨hempty, hvalve, .inl rfl, hconf, hup, hlock⟩)
  | locked =>
    obtain ⟨hempty, hvalve, -, hconf, -, -⟩ := (fits_locked hst).mp hfits
    obtain ⟨⟨hline, hlamp⟩, hother, honly⟩ :=
      setState_spec i .reserved (s.setLine i { s.line i with lock := .clear })
    rw [line_setLine_same] at hline
    have e : reserveLine i s = setState i .reserved (s.setLine i { s.line i with lock := .clear }) := by
      simp [reserveLine, hst]
    rw [e]
    exact h.moves hline (fun _ => hlamp) ((setLine_others s i _).trans hother)
      ((setLine_only s i _).trans honly) (by decide)
      ((fits_reserved rfl).mpr ⟨hempty, hvalve, .inl rfl, hconf, hup, rfl⟩)
      (by rw [inPour_of_state hst]; rfl) (by simp [hst])
  | pouring =>
    obtain ⟨hpour, -, hconf, -, hlock⟩ := (fits_pouring hst).mp hfits
    have e : reserveLine i s = s.setLine i { s.line i with cleanMark := true } := by
      simp [reserveLine, hst]
    rw [e]
    exact h.writes_moves ((fits_pouring (by exact hst)).mpr
      ⟨hpour, .inr ⟨rfl, rfl⟩, hconf, hup, hlock⟩) rfl rfl rfl
  | afterRun =>
    obtain ⟨hpour, -, hvalve, hconf, hlock⟩ := (fits_afterRun hst).mp hfits
    have e : reserveLine i s = s.setLine i { s.line i with cleanMark := true } := by
      simp [reserveLine, hst]
    rw [e]
    exact h.writes_moves ((fits_afterRun (by exact hst)).mpr
      ⟨hpour, .inr ⟨rfl, rfl⟩, hvalve, hconf, hlock⟩) rfl rfl rfl
  | reserved =>
    obtain ⟨-, -, hrole, -⟩ := (fits_reserved hst).mp hfits
    simp [hr] at hrole
  | cleaning =>
    obtain ⟨-, ⟨b, hb, -⟩, -⟩ := (fits_cleaning hst).mp hfits
    simp [hr] at hb

theorem reserveLine_frame (i : LineNo) (s : State) :
    OtherLines i s (reserveLine i s) ∧ Only [.lines, .starts] s (reserveLine i s) := by
  have hset := setState_spec i .reserved s
  obtain ⟨-, hother, honly⟩ := setState_spec i .reserved (s.setLine i { s.line i with lock := .clear })
  have hline := fun l => setLine_others s i l
  have hlonly := fun l => setLine_only s i l
  unfold reserveLine
  split
  · exact ⟨hset.2.1, hset.2.2.mono (by simp)⟩
  · exact ⟨(refuseEntry_spec i .reserved s).2.1, (refuseEntry_spec i .reserved s).2.2.2⟩
  · exact ⟨(hline _).trans hother, ((hlonly _).trans honly).mono (by simp)⟩
  · exact ⟨hline _, (hlonly _).mono (by simp)⟩
  · exact ⟨hline _, (hlonly _).mono (by simp)⟩
  · exact ⟨OtherLines.refl i s, Only.refl _ s⟩

/-- A run is started on configured lines of a RUNNING station with room for its records (R174, R175). -/
theorem sound_acceptRun (h : Sound L s) (entry : Nat) {lines : Byte} (hstation : s.station = .running)
    (hidle : s.clean.runState = .idle) (hconf : ∀ i ∈ linesOf lines, s.configured i = true)
    (hroom : 1 + (linesOf lines).length ≤ s.freeSpace) : Sound L (acceptRun entry lines s) := by
  have hjob := h.shape.idle.mp hidle
  have hslots : s.clean.slots = 0 := by
    have hs := h.shape.slots
    rwa [hjob] at hs
  have hsel : s.selected = [] := by simp only [State.selected, hjob]
  have hpost : ∀ i, s.post i = ⟨s.configured i, true, .free⟩ := fun i => by
    simp [State.post, hsel, hstation]
  obtain ⟨a, ha⟩ : ∃ a, a = modClean (fun c => { c with
      runNumber := c.runNumber + 1, job := some { entry, lines, start := s.seconds },
      slots := 1 + (linesOf lines).length })
    { s with journal := { s.journal with reserved := s.journal.reserved + (1 + (linesOf lines).length) } } :=
    ⟨_, rfl⟩
  have hta : Tower s.post (fun _ => L) a := by
    have hres := h.tower.reserved
    simp only [State.freeSpace] at hroom
    rw [ha]
    refine ⟨h.tower.fits, h.tower.lit, h.tower.pours, ?_, ?_, h.tower.nodup, h.tower.waiting⟩
    · show s.journal.reserved + (1 + (linesOf lines).length) = s.pours + (1 + (linesOf lines).length)
      omega
    · show s.journal.records.length + (s.journal.reserved + (1 + (linesOf lines).length)) ≤ 64
      omega
  obtain ⟨b, hb⟩ : ∃ b, b = overLines reserveLine (linesOf lines) a := ⟨_, rfl⟩
  have htb : Tower (posted s.post (linesOf lines) .preparing) (fun _ => L) b := by
    rw [hb]
    refine hta.several (f := reserveLine) (dest := fun i => { s.post i with role := .preparing })
      (Before := fun _ l => l.state ≠ .off) (Agree := fun _ => True)
      (fun i v st hv hst hne _ => ?_) (fun i v => (reserveLine_frame i v).1) (fun _ _ => id)
      (linesOf_nodup lines) (fun i hi hoff => ?_) trivial
    · have hr := tower_reserveLine hv (by rw [hst, hpost]) (by rw [hst, hpost]) hne
      rwa [hst] at hr
    · obtain ⟨-, -, -, hdown, -⟩ := (fits_off hoff).mp (hta.fits i)
      simp [hpost, hconf i hi] at hdown
  have hab : Only [.lines, .starts] a b := by
    rw [hb]; exact overLines_only (fun i v => (reserveLine_frame i v).2) _ _
  obtain ⟨c, hc⟩ : ∃ c, c = modClean (fun d => { d with runState := .preparing }) b := ⟨_, rfl⟩
  have hclean : c.clean = { s.clean with
      runNumber := s.clean.runNumber + 1, job := some { entry, lines, start := s.seconds },
      slots := 1 + (linesOf lines).length, runState := .preparing } := by
    rw [hc, modClean_clean, show b.clean = a.clean from hab .clean (by simp), ha]
    rfl
  have hcstation : c.station = s.station := by
    rw [hc, modClean_station, show b.station = a.station from hab .station (by simp), ha]
    rfl
  have hcconfig : c.config = s.config := by
    rw [hc, modClean_config, show b.config = a.config from hab .config (by simp), ha]
    rfl
  have hprog : s.clean.progress = none := by
    by_contra hsome
    have hrun := h.shape.running.mpr (Option.isSome_iff_ne_none.mpr hsome)
    simp [hidle] at hrun
  have e : acceptRun entry lines s = checkPrepared c := by rw [hc, hb, ha]; rfl
  rw [e]
  have hcpost : c.post = posted s.post (linesOf lines) .preparing := by
    have hcsel : c.selected = linesOf lines := by simp only [State.selected, hclean]
    funext i
    by_cases hi : i ∈ linesOf lines <;>
      simp [State.post, posted, hcsel, hi, hcstation, configured_congr hcconfig, Cleaning.role, hclean,
        hsel]
  refine sound_checkPrepared (.of_tower ?_ ?_ ?_ ?_ ?_ ?_)
  · rw [hcpost, hc]
    exact htb.cleans rfl
  · rw [hclean]; simp
  · rw [hclean]; simp [hprog]
  · rw [hclean]
  · rw [hcstation, hcconfig]; exact h.shape.config
  · rw [hcstation]; exact fun hne => absurd hstation hne

end run

end Sys2Proof.Machine

/-! SUPPORT. The completion of a pour, the samples, the cellar link and the reset keep the invariant of the
station. -/

namespace Sys2Proof.Machine

/-! ## The completion of a pour -/

section completion

variable {L : Prop} {s t : State} {i : LineNo} {p : PourCtx}

/-- The line that a completion leaves, before the list is served (R22). -/
def settledLine (s : State) (l : Line) (p : PourCtx) : Line :=
  { bookedLine l p with
    state := completedState s l (foamLocks p l),
    lock := if foamLocks p l then .foamOut else l.lock, cleanMark := false }

/-- A completed line waits for nothing and has no pour; it is OFF in a station that is not RUNNING. -/
theorem settledLine_state (s : State) (l : Line) (p : PourCtx) :
    ((settledLine s l p).state = .off ∧ s.station ≠ .running) ∨ (settledLine s l p).state = .reserved ∨
      (settledLine s l p).state = .locked ∨ (settledLine s l p).state = .ready := by
  have hstate : (settledLine s l p).state = completedState s l (foamLocks p l) := rfl
  rw [hstate]
  unfold completedState
  split
  · exact .inl ⟨rfl, ‹_›⟩
  · split
    · exact .inr (.inl rfl)
    · split
      · exact .inr (.inr (.inl rfl))
      · exact .inr (.inr (.inr rfl))

theorem settledLine_inPour (s : State) (l : Line) (p : PourCtx) :
    (settledLine s l p).inPour = false := by
  rcases settledLine_state s l p with ⟨h, -⟩ | h | h | h <;> rw [inPour_of_state h] <;> rfl

theorem settledLine_not_waiting (s : State) (l : Line) (p : PourCtx) :
    (settledLine s l p).state ≠ .waiting := by
  rcases settledLine_state s l p with ⟨h, -⟩ | h | h | h <;> simp [h]

/-- The line that a completion settles fits: it is released OFF, held for the run, locked or READY (R22). -/
theorem Sound.settledLine (h : Sound L s) (hs : (s.line i).state = .afterRun) :
    (s.post i).fits (Machine.settledLine s (s.line i) p) := by
  obtain ⟨-, hmarks, hvalve, hconf, hlock⟩ := (fits_afterRun hs).mp (h.tower.fits i)
  have hempty : (Machine.settledLine s (s.line i) p).empty := ⟨rfl, rfl⟩
  have hstate : (Machine.settledLine s (s.line i) p).state =
      completedState s (s.line i) (foamLocks p (s.line i)) := rfl
  have hlocks : (Machine.settledLine s (s.line i) p).lock =
      if foamLocks p (s.line i) then .foamOut else (s.line i).lock := rfl
  by_cases hr : s.station = .running
  · have hup : (s.post i).up = true := by simp [State.post, hr]
    rcases hmarks with ⟨hrole, hm⟩ | ⟨hrole, hm⟩
    · cases hf : foamLocks p (s.line i) with
      | true =>
        exact (fits_locked (by simp [hstate, completedState, hr, hm, hf])).mpr
          ⟨hempty, hvalve, hrole, hconf, hup, by simp [hlocks, hf]⟩
      | false =>
        exact (fits_standing (.inl (by simp [hstate, completedState, hr, hm, hf]))).mpr
          ⟨hempty, hvalve, hrole, hconf, hup, by simp [hlocks, hf, hlock]⟩
    · have hf : foamLocks p (s.line i) = false := by simp [foamLocks, hm]
      exact (fits_reserved (by simp [hstate, completedState, hr, hm])).mpr
        ⟨hempty, hvalve, .inl hrole, hconf, hup, by simp [hlocks, hf, hlock]⟩
  · have hrole : (s.post i).role = .free := (post_free s i).mpr (.inl (h.shape.shut hr).1)
    exact (fits_off (by simp [hstate, completedState, hr])).mpr ⟨hempty, hvalve, hrole,
      fun _ => by simpa [State.post] using hr, fun hc => by simp [hconf] at hc⟩

/-- A pour in progress is counted (R15). -/
theorem Tower.pours_pos {stand : LineNo → Post} {Lit : LineNo → Prop} (h : Tower stand Lit s)
    (hs : (s.line i).inPour = true) : 1 ≤ s.pours := by
  rw [h.pours]
  exact List.length_pos_of_mem (List.mem_filter.mpr ⟨mem_allLines i, hs⟩)

/-- The pour is booked and its line settled: a slot is spent, and one pour less is counted (R22, R69). -/
theorem sound_settleLine (h : Sound L s) (hs : (s.line i).state = .afterRun) :
    Sound L (settleLine i p (bookPour i p s)) ∧
      ((settleLine i p (bookPour i p s)).line i).sansLamp =
        (Machine.settledLine s (s.line i) p).sansLamp ∧
      Only [.lines, .pours, .journal, .sources, .attn] s (settleLine i p (bookPour i p s)) := by
  obtain ⟨hjournal, hpours, hsources, hlines, hbline, hsource, -, -, hbonly⟩ := bookPour_spec i p s
  obtain ⟨⟨hline, hlamp⟩, hother, -, honly⟩ := settleLine_spec i p (bookPour i p s)
  have hstate : ∀ l k, completedState (bookPour i p s) l k = completedState s l k := fun l k => by
    simp only [completedState, show (bookPour i p s).station = s.station from hbonly .station (by simp)]
  rw [hstate, hbline] at hline
  have hsettled : ((settleLine i p (bookPour i p s)).line i).sansLamp =
      (Machine.settledLine s (s.line i) p).sansLamp := hline
  have hon : Only [.lines, .pours, .journal, .sources, .attn] s (settleLine i p (bookPour i p s)) :=
    hbonly.trans (honly.mono (by simp))
  have hclean : (settleLine i p (bookPour i p s)).clean = s.clean := hon .clean (by simp)
  have hstarts : (settleLine i p (bookPour i p s)).starts = s.starts := hon .starts (by simp)
  have htj := (honly .journal (by simp)).trans hjournal
  have htp := (honly .pours (by simp)).trans hpours
  have hreads : SameReads s (settleLine i p (bookPour i p s)) :=
    ⟨configured_congr (hon .config (by simp)), sourceEmpty_congr (hon .config (by simp)) fun y => by
      rw [source_congr (honly .sources (by simp))]
      by_cases hy : y = (s.lineCfg i).source
      · rw [hy, hsource]
      · rw [hsources y hy], congrArg Cooling.warmHold (hon .cool (by simp))⟩
  have hin : (s.line i).inPour = true := by rw [inPour_of_state hs]; rfl
  have hpos := h.tower.pours_pos hin
  have hres := h.tower.reserved
  have hroom := h.tower.room
  have hmoved := h.tower.change (w := s.post i) (fun _ _ => id) hsettled (fun _ => hlamp)
    (hlines.trans hother) hreads (h.settledLine hs) ?_ ?_ ?_ (hstarts ▸ h.tower.nodup) ?_
    (fun j _ => by rw [hstarts])
  · rw [Function.update_eq_self] at hmoved
    exact ⟨h.keep hmoved hon (by simp), hsettled, hon⟩
  · rw [htp, hin, settledLine_inPour]
    show s.pours - 1 + 1 = s.pours + 0
    omega
  · rw [htj, htp, hclean]
    show s.journal.reserved - 1 = s.pours - 1 + s.clean.slots
    omega
  · rw [htj]
    show (s.journal.records ++ [_]).length + (s.journal.reserved - 1) ≤ 64
    rw [List.length_append, List.length_singleton]
    omega
  · rw [hstarts, ← h.tower.waiting, hs]
    exact iff_of_false (settledLine_not_waiting _ _ _) (by simp)

/-- The walk leaves the lines that are not in the list (R14). -/
theorem serveList_others {es : List StartEntry} (hi : i ∉ es.map StartEntry.line) (s : State) :
    (serveList es s).line i = s.line i := by
  induction es generalizing s with
  | nil => rfl
  | cons e rest ih =>
    simp only [List.map_cons, List.mem_cons, not_or] at hi
    unfold serveList
    split
    · exact (ih hi.2 _).trans ((refuseEntry_spec e.line .ready s).2.1 i hi.1)
    · split
      · rfl
      · exact (ih hi.2 _).trans (beginPour_others e.line e.kind _ i hi.1)

/-- A remembered key is presented on a line that is READY, or refused (R22, R23). -/
theorem sound_presentRemembered (h : Sound L s) (hc : s.configured i = true)
    (hs : ((s.line i).state = .off ∧ s.station ≠ .running) ∨ (s.line i).state = .reserved ∨
      (s.line i).state = .locked ∨ (s.line i).state = .ready) :
    Sound L (presentRemembered i s) := by
  unfold presentRemembered
  simp only
  split
  · next k _ =>
    have hcleared : Sound L (s.setLine i { s.line i with remembered := none }) :=
      h.unseen rfl rfl rfl rfl rfl rfl rfl
    have hline : ((s.setLine i { s.line i with remembered := none }).line i).state =
        (s.line i).state := by rw [line_setLine_same]
    have hrefused : (s.station ≠ .running ∨ (s.line i).state ∈ [.locked, .reserved, .cleaning]) →
        Sound L (request i (Key.kind k) (s.setLine i { s.line i with remembered := none })) := fun hr =>
      sound_request_refused hcleared _ hc ((refusedAtOnce_iff _ i).mpr (by
        rw [hline]
        exact hr.imp id .inl))
    rcases hs with ⟨-, hst⟩ | hst | hst | hst
    · exact hrefused (.inl hst)
    · exact hrefused (.inr (by simp [hst]))
    · exact hrefused (.inr (by simp [hst]))
    · exact sound_request hcleared _ (hline.trans hst)
  · exact h

/-- The completion of a pour (R22): the list is served once the line is settled, and the remembered key is
presented last. -/
theorem sound_complete (h : Sound L s) (hs : (s.line i).state = .afterRun) :
    Sound L (complete i p s) := by
  obtain ⟨hsettle, hline, honly⟩ := sound_settleLine (p := p) h hs
  obtain ⟨u, hu⟩ : ∃ u, u = afterCompletion i p (bookPour i p s) := ⟨_, rfl⟩
  have hafter : Sound L u ∧ u.line i = (settleLine i p (bookPour i p s)).line i ∧
      Only [.clean, .link] (settleLine i p (bookPour i p s)) u := by
    rw [hu, afterCompletion_eq]
    split
    · have honly : Only [.clean, .link] (settleLine i p (bookPour i p s))
          (checkPrepared (settleLine i p (bookPour i p s))) := by
        unfold checkPrepared
        split
        · exact (enterClaiming_spec _).2.2
        · exact Only.refl _ _
      exact ⟨sound_checkPrepared hsettle, line_congr (honly .lines (by simp)) i, honly⟩
    · exact ⟨hsettle, rfl, Only.refl _ _⟩
  obtain ⟨hsound, huline, huonly⟩ := hafter
  have hstate : (u.line i).state = (Machine.settledLine s (s.line i) p).state :=
    state_sansLamp (by rw [huline]; exact hline)
  have hnot : i ∉ u.starts.map StartEntry.line := fun hi =>
    settledLine_not_waiting s (s.line i) p (hstate ▸ (hsound.tower.waiting i).mpr hi)
  have hserved : (serve u).line i = u.line i := serveList_others hnot u
  have hsu : Only [.lines, .pours, .journal, .sources, .attn, .clean, .link, .starts] s (serve u) :=
    ((honly.mono (by simp)).trans (huonly.mono (by simp))).trans ((serve_only u).mono (by simp))
  rw [complete_eq, ← hu]
  refine sound_presentRemembered (sound_serve hsound) ?_ ?_
  · rw [configured_congr (hsu .config (by simp))]
    exact h.configured (by simp [hs])
  · rw [hserved, hstate, show (serve u).station = s.station from hsu .station (by simp)]
    exact settledLine_state s (s.line i) p

end completion

/-! ## The meter -/

section meter

variable {L : Prop} {s : State} {i : LineNo}

theorem sound_takePulse (h : Sound L s) : Sound L (takePulse i s) := by
  unfold takePulse
  simp only
  split
  · exact h
  · split
    · split
      · exact sound_pourPulse h ‹_›
      · exact h
    · split
      · exact sound_pourPulse h ‹_›
      · exact h
    · exact sound_stepEvent h fun p _ => sound_cleaningPulse h i p
    · exact sound_creepPulse h

end meter

/-! ## Cooling -/

section cooling

variable {L : Prop} {s t : State}

theorem takeCode_only (c : BitVec 12) (s : State) : Only [.cool, .attn] s (takeCode c s) := by
  have hcool := fun k => (cool_only s k).mono (qs := [.cool, .attn]) (by simp)
  unfold takeCode
  simp only
  split
  · exact hcool _
  · split
    · exact hcool _
    · exact (hcool _).trans ((raise_only _ _).mono (by simp))

/-- The lamps of all lines follow whatever the cooling has become (R6, R148). -/
theorem sound_relampAll (h : Sound L s) (hf : Only [.cool, .attn] s t) : Sound L (relampAll t) := by
  have ht : Tower s.post (fun _ => False) t := by
    refine ⟨fun i => ?_, fun _ => False.elim, ?_, ?_, ?_, ?_, fun i => ?_⟩
    · rw [line_congr (hf .lines (by simp))]; exact h.tower.fits i
    · have hl := line_congr (hf .lines (by simp))
      rw [show t.pours = s.pours from hf .pours (by simp), h.tower.pours]
      simp only [hl]
    · rw [show t.journal = s.journal from hf .journal (by simp),
        show t.pours = s.pours from hf .pours (by simp), show t.clean = s.clean from hf .clean (by simp)]
      exact h.tower.reserved
    · rw [show t.journal = s.journal from hf .journal (by simp)]; exact h.tower.room
    · rw [show t.starts = s.starts from hf .starts (by simp)]; exact h.tower.nodup
    · rw [line_congr (hf .lines (by simp)), show t.starts = s.starts from hf .starts (by simp)]
      exact h.tower.waiting i
  have hlit := tower_relamps (L := L) (is := allLines) ht fun i _ hi => absurd (mem_allLines i) hi
  exact h.keep hlit ((hf.mono (by simp)).trans ((overLines_only relamp_only allLines t).mono
    (qs := [.cool, .attn, .lines]) (by simp))) (by simp)

/-- A sample works on the cooling until the lamps follow (R135 to R149). -/
theorem sampled_only (c : BitVec 12) (s : State) : ∃ u,
    Only [.cool, .attn] s u ∧
      sample c s = if (s.cool.warmHold && !(relampAll u).cool.warmHold) ||
        (s.cool.starved && !(relampAll u).cool.starved) then serve (relampAll u) else relampAll u := by
  have hcool := fun u k => (cool_only u k).mono (qs := [.cool, .attn]) (by simp)
  exact ⟨_, ((hcool s _).trans (takeCode_only c _)).trans
    ((hcool _ _).trans ((hcool _ _).trans (hcool _ _))), rfl⟩

theorem sound_sample (h : Sound L s) (c : BitVec 12) : Sound L (sample c s) := by
  obtain ⟨u, honly, hsample⟩ := sampled_only c s
  rw [hsample]
  split
  · exact sound_serve (sound_relampAll h honly)
  · exact sound_relampAll h honly

theorem sound_cool (h : Sound L s) (k : Cooling) (hk : k.warmHold = s.cool.warmHold) :
    Sound L { s with cool := k } :=
  h.keep (tower_cool h.tower k hk) (cool_only s k) (by simp)

theorem sound_staleRegrant (h : Sound L s) : Sound L (staleRegrant s) := by
  have hr : Sound L (regrant s) := sound_cool h _ rfl
  unfold staleRegrant
  simp only
  split
  · exact sound_serve hr
  · exact hr

end cooling

/-! ## The cellar link -/

section link

variable {L : Prop} {s : State}

theorem sound_setPeer (h : Sound L s) (n : Fin 32) (p : Option PeerRec) : Sound L (s.setPeer n p) :=
  h.of_only (setPeer_only s n p) (by decide)

theorem sound_applyStatus (h : Sound L s) (n : Fin 32) (b : StatusBody) :
    Sound L (applyStatus n b s) :=
  sound_evaluateClaim (sound_lowTests (sound_setPeer (sound_processEntries h _ _) _ _) _ _)

theorem sound_duplicateStation (h : Sound L s) : Sound L (duplicateStation s) := by
  unfold duplicateStation
  refine sound_raise ?_ _
  split
  · exact h
  · simp only
    split
    · exact sound_modLink h _
    · exact sound_raise (sound_modLink h _) _

theorem sound_handFrame (h : Sound L s) (f : LinkFrame) : Sound L (handFrame f s) := by
  unfold handFrame
  split
  · exact sound_duplicateStation h
  · split
    · exact sound_takeChange h _
    · split
      · exact sound_applyStatus h _ _
      · exact h

theorem sound_arriveFrame (h : Sound L s) (f : LinkFrame) : Sound L (arriveFrame f s) := by
  unfold arriveFrame
  split
  · exact sound_handFrame (sound_modLink h _) f
  · exact sound_modLink h _

theorem sound_startAttempt (h : Sound L s) : Sound L (startAttempt s) := by
  unfold startAttempt
  split
  · split
    · exact sound_modLink h _
    · exact h
  · exact h

theorem sound_dropFrame (h : Sound L s) (kind : CurrentKind) : Sound L (dropFrame kind s) := by
  unfold dropFrame
  refine sound_selectFrame ?_
  split
  · exact sound_raise (sound_modLink h _) _
  · exact sound_modLink h _

theorem sound_collide (h : Sound L s) : Sound L (collide s) := by
  unfold collide
  split
  · simp only
    split
    · exact sound_dropFrame (sound_modLink h _) _
    · exact sound_modLink (sound_modLink h _) _
  · exact h

theorem sound_succeed (h : Sound L s) : Sound L (succeed s) := by
  unfold succeed
  split
  · refine sound_selectFrame ?_
    split
    · exact sound_statusSuccess (sound_modLink h _)
    · exact sound_modLink h _
  · exact h

theorem sound_readBack (h : Sound L s) (t : TxFrame) (v : Byte) (err : Bool) :
    Sound L (readBack t v err s) := by
  unfold readBack
  split
  · exact sound_collide h
  · split
    · exact sound_succeed h
    · exact sound_modLink h _

theorem sound_takeChar (h : Sound L s) (v : Byte) (err : Bool) : Sound L (takeChar v err s) := by
  unfold takeChar
  split
  · exact h
  · exact h
  · split
    · exact sound_modLink h _
    · split
      · exact sound_modLink h _
      · exact sound_modLink h _
  · split
    · exact sound_modLink h _
    · exact sound_modLink h _
    · exact sound_arriveFrame h _
  · split
    · exact sound_readBack h _ v err
    · exact h

end link

/-! ## The reset -/

section reset

variable {L : Prop} {s : State}

/-- After a reset every line is OFF and its lamp dark, and nothing is reserved, parked or run (R193). -/
theorem sound_resetAct (s : State) : Sound L (resetAct s) := by
  have hline : ∀ i, (resetAct s).line i = .reset := fun i => by
    simp [resetAct, State.reset, State.line]
  have hconf : ∀ i, (resetAct s).configured i = false := fun i => by
    simp [State.configured, State.cfg, resetAct, State.reset, Cfg.blank]
  refine .of_tower ⟨fun i => ?_, fun i _ => ?_, ?_, rfl, Nat.zero_le 64, .nil, fun i => ?_⟩ ?_ ?_ rfl ?_ ?_
  · rw [hline]
    refine (fits_off rfl).mpr ⟨⟨rfl, rfl⟩, rfl, rfl, fun _ => rfl, fun _ => rfl⟩
  · rw [hline, lampPattern, hconf]
    rfl
  · simp only [hline]
    rfl
  · rw [hline]
    simp [Line.reset, resetAct, State.reset]
  · exact iff_of_true rfl rfl
  · exact iff_of_false (by simp [resetAct, State.reset, Cleaning.reset])
      (by simp [resetAct, State.reset, Cleaning.reset])
  · exact iff_of_true rfl rfl
  · exact fun _ => rfl

end reset

end Sys2Proof.Machine

/-! SUPPORT. The terminal port, CONFIGURE, START and STOP keep the invariant of the station. -/

namespace Sys2Proof.Machine

/-! ## The port -/

section port

variable {L : Prop} {s t : State}

theorem sound_port (h : Sound L s) (p : Port) : Sound L { s with port := p } :=
  h.of_only (ps := [.port]) (by intro q hq; cases q <;> simp_all [Part.same]) (by decide)

/-- What acts outside the hold of RSTN keeps what it keeps. -/
theorem sound_powered {f : State → State} (h : Sound L s) (hf : Sound L (f s)) :
    Sound L (powered s f) := by
  unfold powered
  split
  · exact h
  · exact hf

/-- A command keeps what its body keeps (R188, R189, R193). -/
theorem sound_command {body : State → State × Answer} (h : Sound L s)
    (hbody : ∀ u, Sound L u → Sound L (body u).1) : Sound L (command body s) := by
  refine sound_powered h ?_
  simp only
  split
  · exact sound_port h _
  · split
    · exact sound_resetAct s
    · exact sound_port (hbody _ (sound_port h _)) _

theorem sound_readOut (h : Sound L s) (n : Nat) : Sound L (readOut n s) := by
  unfold readOut
  refine sound_port ?_ _
  split
  · exact sound_resetAct s
  · exact sound_port h _

end port

/-! ## CONFIGURE -/

section configure

variable {L : Prop} {s : State} {i : LineNo}

/-- Without a configuration no line is configured (R191). -/
theorem configured_of_none (h : s.config = none) (i : LineNo) : s.configured i = false := by
  simp [State.configured, State.cfg, h, Cfg.blank]

/-- The image is loaded on lines that are all OFF and dark (R192). -/
theorem sound_loaded (h : Sound L s) (hs : s.station = .unconfigured) (c : Cfg) :
    Sound L { s with
      config := some c, station := .stopped, seconds := 0, secondFrom := some s.now } := by
  have hbare : ∀ i, (s.line i).state = .off ∧ (s.line i).flashFrom = none := fun i =>
    (h.tower.fits i).clauses.bare (configured_of_none (h.shape.config.mp hs) i)
  obtain ⟨hrun, -⟩ := h.shape.shut (by simp [hs])
  have hsel : s.selected = [] := by simp only [State.selected, h.shape.idle.mp hrun]
  refine .of_tower ⟨fun i => ?_, fun i hl => ?_, h.tower.pours, h.tower.reserved, h.tower.room,
    h.tower.nodup, h.tower.waiting⟩ h.shape.idle h.shape.running h.shape.slots (by simp) fun _ => hrun
  · obtain ⟨hstate, hflash⟩ := hbare i
    obtain ⟨hempty, hvalve, -⟩ := (fits_off hstate).mp (h.tower.fits i)
    refine (fits_off hstate).mpr ⟨hempty, hvalve, ?_, fun _ => rfl, fun _ => hflash⟩
    exact (post_free _ i).mpr (.inl hrun)
  · obtain ⟨hstate, hflash⟩ := hbare i
    have hdark : lampPattern s i = .off := by
      simp [lampPattern, configured_of_none (h.shape.config.mp hs)]
    have hline : ∀ t : State, t.lines = s.lines → lampPattern t i = .off := fun t ht => by
      simp [lampPattern, line_congr ht, hstate, hflash]
    exact (h.tower.lit i hl).trans (hdark.trans (hline { s with
      config := some c, station := .stopped, seconds := 0, secondFrom := some s.now } rfl).symm)

theorem sound_configureBody (h : Sound L s) (img : List Byte) :
    Sound L (configureBody img s).1 := by
  unfold configureBody
  split
  · exact h
  · next hs =>
    split
    · exact h
    · exact sound_cool (sound_cool (sound_requestStatus (sound_modLink
        (sound_loaded h (not_not.mp hs) _) _)) _ rfl) _ rfl

end configure

/-! ## START -/

section start

variable {stand : LineNo → Post} {Lit : LineNo → Prop} {L : Prop} {s : State} {i : LineNo}

theorem post_eq {w w' : Post} (hconf : w.configured = w'.configured) (hup : w.up = w'.up)
    (hrole : w.role = w'.role) : w = w' := by
  cases w; cases w'; simp_all

/-- A line of a station that is not RUNNING is OFF or in AFTER-RUN. -/
theorem Post.fits.down {w : Post} {l : Line} (h : w.fits l) (hup : w.up = false)
    (hrole : w.role = .free) : l.state = .off ∨ l.state = .afterRun := by
  unfold Post.fits at h
  cases hs : l.state <;> simp_all

/-- A line is started: an OFF line that is configured is LOCKED by its lock reason, or READY (R3). -/
theorem tower_startLine (h : Tower stand Lit s) (hconf : (stand i).configured = s.configured i)
    (hup : (stand i).up = false) (hrole : (stand i).role = .free) :
    Tower (Function.update stand i { stand i with up := true }) Lit (startLine i s) := by
  rcases (h.fits i).down hup hrole with hs | hs
  · obtain ⟨hempty, hvalve, -, -, hflash⟩ := (fits_off hs).mp (h.fits i)
    cases hc : s.configured i with
    | true =>
      obtain ⟨⟨hline, hlamp⟩, hother, honly⟩ := setState_spec i
        (if (s.line i).lock = .clear then .ready else .locked)
        (s.setLine i { s.line i with lastPour := none })
      rw [line_setLine_same] at hline
      have e : startLine i s = setState i (if (s.line i).lock = .clear then .ready else .locked)
          (s.setLine i { s.line i with lastPour := none }) := by simp [startLine, hc, hs]
      rw [e]
      have hother := (setLine_others s i _).trans hother
      have honly := (setLine_only s i _).trans honly
      by_cases hl : (s.line i).lock = .clear
      · rw [if_pos hl] at *
        exact h.moves hline (fun _ => hlamp) hother honly (by decide)
          ((fits_standing (.inl rfl)).mpr ⟨hempty, hvalve, hrole, hconf.trans hc, rfl, hl⟩)
          (by rw [inPour_of_state hs]; rfl) (by simp [hs])
      · rw [if_neg hl] at *
        exact h.moves hline (fun _ => hlamp) hother honly (by decide)
          ((fits_locked rfl).mpr ⟨hempty, hvalve, hrole, hconf.trans hc, rfl, hl⟩)
          (by rw [inPour_of_state hs]; rfl) (by simp [hs])
    | false =>
      have e : startLine i s = s.setLine i { s.line i with lastPour := none } := by
        simp [startLine, hc]
      rw [e]
      exact h.writes_moves ((fits_off (by exact hs)).mpr ⟨hempty, hvalve, hrole,
        fun hn => by simp [hconf, hc] at hn, hflash⟩) rfl rfl rfl
  · obtain ⟨hpour, hmarks, hvalve, hc, hlock⟩ := (fits_afterRun hs).mp (h.fits i)
    have e : startLine i s = s.setLine i { s.line i with lastPour := none } := by
      simp [startLine, hs]
    rw [e]
    exact h.writes_moves ((fits_afterRun (by exact hs)).mpr ⟨hpour, hmarks, hvalve, hc, hlock⟩)
      rfl rfl rfl

/-- The station enters RUNNING: every line is started (R3, R191). -/
theorem sound_started (h : Sound L s) (hs : s.station = .stopped) :
    Sound L (overLines startLine allLines { s with station := .running }) := by
  obtain ⟨hrun, -⟩ := h.shape.shut (by simp [hs])
  have hpost : ∀ i, s.post i = ⟨s.configured i, false, .free⟩ := fun i => by
    have hrole := (post_free s i).mpr (.inl hrun)
    simp only [State.post, hs] at hrole ⊢
    rw [hrole]
    rfl
  obtain ⟨a, ha⟩ : ∃ a : State, a = { s with station := .running } := ⟨_, rfl⟩
  have hsa : Only [.station] s a := by
    intro p hp; subst ha; cases p <;> simp_all [Part.same]
  have hta : Tower s.post (fun _ => L) a := h.tower.of_only hsa (by decide)
  have hstarted := hta.several (f := startLine) (dest := fun i => { s.post i with up := true })
    (Before := fun _ _ => True) (Agree := fun u => u.config = s.config)
    (fun i u st hu hst _ hagree => by
      have hi := tower_startLine hu (i := i)
        (by rw [hst, hpost, configured_congr hagree]) (by rw [hst, hpost]) (by rw [hst, hpost])
      rwa [hst] at hi)
    (fun i u => (startLine_spec i u).2.1)
    (fun i u hu => ((startLine_spec i u).2.2 .config (by simp)).trans hu) allLines_nodup
    (fun _ _ => trivial) (hsa .config (by simp))
  have hfolded := hsa.mono (qs := [.station, .lines]) (by simp) |>.trans
    ((overLines_only (fun i u => (startLine_spec i u).2.2) allLines a).mono (by simp))
  have hstation : (overLines startLine allLines a).station = .running :=
    (overLines_only (fun i u => (startLine_spec i u).2.2) allLines a .station (by simp)).trans (by rw [ha])
  rw [← ha]
  generalize overLines startLine allLines a = t at *
  have hclean : t.clean = s.clean := hfolded .clean (by simp)
  refine .of_tower ?_ ?_ ?_ ?_ ?_ ?_
  · refine hstarted.restand (fun i hi => ?_) fun _ => id
    have hi' : t.post i = { s.post i with up := true } :=
      post_eq (configured_congr (hfolded .config (by simp)) i) (by simp [State.post, hstation])
        (((post_free t i).mpr (.inl (by rw [hclean, hrun]))).trans
          ((post_free s i).mpr (.inl hrun)).symm)
    rw [if_pos (mem_allLines i)] at hi
    rw [hi']
    exact hi
  · rw [hclean]; exact h.shape.idle
  · rw [hclean]; exact h.shape.running
  · rw [hclean]; exact h.shape.slots
  · rw [hstation, show t.config = s.config from hfolded .config (by simp), ← h.shape.config, hs]
    simp
  · exact fun hne => absurd hstation hne

theorem sound_startBody (h : Sound L s) : Sound L (startBody s).1 := by
  unfold startBody
  split
  · exact h
  · next hs =>
    simp only [accept]
    exact sound_requestStatus (sound_started h (not_not.mp hs))

end start

/-! ## STOP -/

section stop

variable {stand : LineNo → Post} {Lit : LineNo → Prop} {L : Prop} {s c : State} {i : LineNo}

/-- No line pours once the pours have ended (R29). -/
theorem TowerClosed.not_pouring (hc : TowerClosed s c) (hp : PoursOk s) (i : LineNo) :
    (c.line i).state ≠ .pouring := by
  cases hs : (s.line i).state with
  | waiting => simp [show (c.line i).state = .off from congrArg Line.state (hc.waiting i hs)]
  | pouring =>
    have hsome : (s.line i).pour.isSome = true := by rw [(hp.1 i).1, Line.inPour, hs]; rfl
    obtain ⟨p, hp'⟩ := Option.isSome_iff_exists.mp hsome
    simp [show (c.line i).state = .afterRun from congrArg Line.state (hc.pouring i p hs hp')]
  | _ => simp [hc.quiet i (by rw [hs]; exact ⟨by simp, by simp⟩), hs]

/-- Where the lines stand once the list is emptied (R29). -/
def emptied (s : State) (i : LineNo) : Post :=
  if i ∈ s.starts.map StartEntry.line then { s.post i with up := false } else s.post i

theorem emptied_role (s : State) (i : LineNo) : (emptied s i).role = (s.post i).role := by
  unfold emptied
  split <;> rfl

theorem emptied_configured (s : State) (i : LineNo) : (emptied s i).configured = s.configured i := by
  unfold emptied
  split <;> rfl

/-- The list is emptied with refusal and the pours end (R29). -/
theorem tower_closeTower (h : Sound L s) : Tower (emptied s) (fun _ => L) (closeTower s) := by
  obtain ⟨a, ha⟩ : ∃ a : State, a = { s with station := .stopped } := ⟨_, rfl⟩
  have hsa : Only [.station] s a := by
    intro p hp; subst ha; cases p <;> simp_all [Part.same]
  have hta : Tower s.post (fun _ => L) a := h.tower.of_only hsa (by decide)
  have hemptied : Tower (emptied s) (fun _ => L)
      (overLines (fun i => refuseEntry i .off) (s.starts.map StartEntry.line) a) := by
    refine hta.several (f := fun i => refuseEntry i .off)
      (dest := fun i => { s.post i with up := false }) (Before := fun _ l => l.state = .waiting)
      (Agree := fun _ => True) (fun i u st hu hst hw _ => ?_)
      (fun i u => (refuseEntry_spec i .off u).2.1) (fun _ _ => id) h.tower.nodup
      (fun i hi => (hta.waiting i).mpr (by rw [show a.starts = s.starts from hsa .starts (by simp)]; exact hi))
      trivial
    have hfits := hu.fits i
    obtain ⟨hempty, hvalve, hrole, hconf, -⟩ := (fits_standing (.inr hw)).mp hfits
    rw [hst] at hrole hconf
    exact hu.refused (refuseEntry_spec i .off u) hw (by simp) ((fits_off rfl).mpr
      ⟨hempty, hvalve, hrole, fun _ => rfl, fun hn => by simp [hconf] at hn⟩)
  have e : closeTower s = overLines (fun i => endIfPouring i .stopped) allLines
      (overLines (fun i => refuseEntry i .off) (s.starts.map StartEntry.line) a) := by rw [ha]; rfl
  rw [e]
  exact overLines_always (f := fun i => endIfPouring i .stopped)
    (P := Tower (emptied s) fun _ => L) (fun i u hu => tower_endIfPouring hu .stopped) allLines hemptied

/-- The end of the run leaves the list, and the lines that it did not hold (R182, R183). -/
theorem TowerClosed.abortRun (hc : TowerClosed s c) (hs : StationOk s) :
    (abortRun c).starts = [] ∧ ∀ i, i ∉ s.selected → (abortRun c).line i = c.line i := by
  obtain ⟨hp, hl, -, hr, -⟩ := hs
  have hclean : c.clean = s.clean := hc.only .clean (by simp)
  have hjob : s.clean.runState ≠ .idle → ∃ j, s.clean.job = some j := fun hne =>
    Option.ne_none_iff_exists'.mp fun hj => hne (hr.1.mpr hj)
  have hearly : s.clean.runState = .preparing ∨ s.clean.runState = .claiming →
      (endEarly c).starts = [] ∧ ∀ i, i ∉ s.selected → (endEarly c).line i = c.line i := fun hrun => by
    obtain ⟨j, hj⟩ := hjob (by rcases hrun with h | h <;> simp [h])
    obtain ⟨-, -, hout, hv⟩ := endEarly_stopped hc hp hl hr hrun hj
    exact ⟨(hv .starts (by simp)).trans hc.starts, hout⟩
  unfold Machine.abortRun
  rw [hclean]
  cases hrun : s.clean.runState with
  | idle => exact ⟨hc.starts, fun _ _ => rfl⟩
  | preparing => exact hearly (.inl hrun)
  | claiming => exact hearly (.inr hrun)
  | running =>
    obtain ⟨j, hj⟩ := hjob (by simp [hrun])
    obtain ⟨p, hprog⟩ := Option.isSome_iff_exists.mp (hr.2.1.mp hrun)
    obtain ⟨-, -, hout, hv⟩ := endRunning_stopped hc hp hl hr hrun hj hprog
    exact ⟨(hv .starts (by simp)).trans hc.starts, hout⟩

/-- A line that neither waits nor pours stands in a station that is not RUNNING (R29). -/
theorem tower_stopLine (h : Tower stand Lit s) (hrole : (stand i).role = .free)
    (hquiet : (s.line i).state.quiet) :
    Tower (Function.update stand i ⟨(stand i).configured, false, .free⟩) Lit (stopLine i s) := by
  obtain ⟨hwait, hpour⟩ := hquiet
  have hfits := h.fits i
  have hstays : Post.fits ⟨(stand i).configured, false, .free⟩ (s.line i) →
      Tower (Function.update stand i ⟨(stand i).configured, false, .free⟩) Lit s := fun hf =>
    h.restand (fun j hj => by
      by_cases hji : j = i
      · rw [hji, Function.update_self]; exact hf
      · rwa [Function.update_of_ne hji]) fun _ => id
  have hoff : (s.line i).state = .ready ∨ (s.line i).state = .locked → (s.line i).empty →
      (s.line i).valve = .closed → (stand i).configured = true →
      Tower (Function.update stand i ⟨(stand i).configured, false, .free⟩) Lit (setState i .off s) :=
    fun hs hempty hvalve hconf => by
      obtain ⟨⟨hline, hlamp⟩, hother, honly⟩ := setState_spec i .off s
      exact h.moves hline (fun _ => hlamp) hother honly (by decide) ((fits_off rfl).mpr
        ⟨hempty, hvalve, rfl, fun _ => rfl, fun hn => by simp [hconf] at hn⟩)
        (by rcases hs with hs | hs <;> rw [inPour_of_state hs] <;> rfl)
        (by rcases hs with hs | hs <;> simp [hs])
  cases hs : (s.line i).state with
  | waiting => exact absurd hs hwait
  | pouring => exact absurd hs hpour
  | reserved =>
    obtain ⟨-, -, hr, -⟩ := (fits_reserved hs).mp hfits
    simp [hrole] at hr
  | cleaning =>
    obtain ⟨-, ⟨b, hb, -⟩, -⟩ := (fits_cleaning hs).mp hfits
    simp [hrole] at hb
  | off =>
    rw [stopLine_off hs]
    obtain ⟨hempty, hvalve, -, -, hflash⟩ := (fits_off hs).mp hfits
    exact hstays ((fits_off hs).mpr ⟨hempty, hvalve, rfl, fun _ => rfl, hflash⟩)
  | afterRun =>
    rw [show stopLine i s = s by simp only [stopLine, hs]]
    obtain ⟨hpour, hmarks, hvalve, hconf, hlock⟩ := (fits_afterRun hs).mp hfits
    have hmark := hmarks.resolve_right fun hm => by simp [hrole] at hm
    exact hstays ((fits_afterRun hs).mpr ⟨hpour, .inl ⟨rfl, hmark.2⟩, hvalve, hconf, hlock⟩)
  | ready =>
    obtain ⟨hempty, hvalve, -, hconf, -⟩ := (fits_standing (.inl hs)).mp hfits
    rw [show stopLine i s = setState i .off s by simp only [stopLine, hs]]
    exact hoff (.inl hs) hempty hvalve hconf
  | locked =>
    obtain ⟨hempty, hvalve, -, hconf, -⟩ := (fits_locked hs).mp hfits
    rw [show stopLine i s = setState i .off s by simp only [stopLine, hs]]
    exact hoff (.inr hs) hempty hvalve hconf

/-- The emptied list and the ended pours leave the run as it was. -/
theorem closeTower_run (h : Sound L s) : (closeTower s).clean = s.clean ∧
    (closeTower s).selected = s.selected := by
  obtain ⟨-, -, hw, -⟩ := (stationOk_lampsOk_iff.mpr h).1
  have hclean : (closeTower s).clean = s.clean := (closeTower_spec hw).1.only .clean (by simp)
  exact ⟨hclean, by simp only [State.selected, hclean]⟩

/-- The run, if there is one, ends once the tower is closed (R29, R186). -/
theorem closeTower_gone (h : Sound L s) :
    RunGone (emptied s) (fun _ => L) (closeTower s) (abortRun (closeTower s)) := by
  obtain ⟨hp, -, hw, -⟩ := (stationOk_lampsOk_iff.mpr h).1
  have hclosed := (closeTower_spec hw).1
  obtain ⟨hclean, hsel⟩ := closeTower_run h
  refine abortRun_gone (tower_closeTower h) ⟨?_, ?_, ?_⟩ (fun i => ?_)
    fun i hi => absurd hi (hclosed.not_pouring hp i)
  · rw [hclean]; exact h.shape.idle
  · rw [hclean]; exact h.shape.running
  · rw [hclean]; exact h.shape.slots
  · rw [emptied_role]
    simp only [State.post, hsel, hclean]

/-- Where the lines stand once the list is emptied and the run is over (R29). -/
def letGo (s : State) : LineNo → Post := released (emptied s) (closeTower s)

theorem letGo_configured (s : State) (i : LineNo) : (letGo s i).configured = s.configured i := by
  unfold letGo released
  split <;> simp only [emptied_configured]

theorem letGo_role (h : Sound L s) (i : LineNo) : (letGo s i).role = .free := by
  unfold letGo released
  split
  · rfl
  · next hi =>
    rw [(closeTower_run h).2] at hi
    exact (emptied_role s i).trans ((post_free s i).mpr (.inr hi))

/-- No line waits or pours once the list is emptied, the pours and the run are over (R29). -/
theorem closeTower_quiet (h : Sound L s) (i : LineNo) :
    ((abortRun (closeTower s)).line i).state.quiet := by
  have hok := (stationOk_lampsOk_iff.mpr h).1
  obtain ⟨hp, -, hw, -⟩ := hok
  have hclosed := (closeTower_spec hw).1
  obtain ⟨hstarts, hout⟩ := hclosed.abortRun (stationOk_lampsOk_iff.mpr h).1
  have htower := (closeTower_gone h).tower
  have hsel := (closeTower_run h).2
  generalize closeTower s = c at *
  refine ⟨fun hwait => ?_, fun hpour => ?_⟩
  · have hi := (htower.waiting i).mp hwait
    simp [hstarts] at hi
  · by_cases hi : i ∈ s.selected
    · obtain ⟨-, -, -, hup, -⟩ := (fits_pouring hpour).mp (htower.fits i)
      simp [released, hsel, hi, hclosed.station] at hup
    · rw [hout i hi] at hpour
      exact hclosed.not_pouring hp i hpour

/-- The station leaves RUNNING: the lines go OFF, or run after (R29, R186). -/
theorem sound_leaveRunning (h : Sound L s) (hs : s.station = .running) : Sound L (leaveRunning s) := by
  obtain ⟨-, -, hw, -⟩ := (stationOk_lampsOk_iff.mpr h).1
  have hclosed := (closeTower_spec hw).1
  obtain ⟨htower, hidle, hjob, hprog, hslots, hstation, hconfig⟩ := closeTower_gone h
  have hquiet := closeTower_quiet h
  rw [show leaveRunning s = overLines stopLine allLines (abortRun (closeTower s)) from rfl]
  rw [show released (emptied s) (closeTower s) = letGo s from rfl] at htower
  generalize closeTower s = c at *
  generalize abortRun c = v at *
  have hstopped := htower.several (f := stopLine) (dest := fun i => ⟨s.configured i, false, .free⟩)
    (Before := fun _ l => l.state.quiet) (Agree := fun _ => True)
    (fun i u st hu hst hb _ => by
      have hi := tower_stopLine hu (by rw [hst]; exact letGo_role h i) hb
      rwa [hst, letGo_configured] at hi)
    (fun i u => (stopLine_spec i u).2.1) (fun _ _ => id) allLines_nodup (fun i _ => hquiet i) trivial
  have hfolded := overLines_only (fun i u => (stopLine_spec i u).2.2) allLines v
  generalize overLines stopLine allLines v = t at *
  have htclean : t.clean = v.clean := hfolded .clean (by simp)
  have htstation : t.station = .stopped :=
    (hfolded .station (by simp)).trans (hstation.trans hclosed.station)
  have htconfig : t.config = s.config :=
    (hfolded .config (by simp)).trans (hconfig.trans (hclosed.only .config (by simp)))
  refine .of_tower ?_ ?_ ?_ ?_ ?_ ?_
  · refine hstopped.restand (fun i hi => ?_) fun _ => id
    have hpost : t.post i = ⟨s.configured i, false, .free⟩ :=
      post_eq (configured_congr htconfig i) (by simp [State.post, htstation])
        ((post_free t i).mpr (.inl (by rw [htclean, hidle])))
    rw [if_pos (mem_allLines i)] at hi
    rw [hpost]
    exact hi
  · rw [htclean]; exact iff_of_true hidle hjob
  · rw [htclean, hidle, hprog]; simp
  · rw [htclean, hslots, hjob]
  · rw [htstation, htconfig, ← h.shape.config, hs]; simp
  · rw [htclean]; exact fun _ => hidle

theorem sound_stopBody (h : Sound L s) : Sound L (stopBody s).1 := by
  unfold stopBody
  split
  · exact h
  · next hs =>
    simp only [accept]
    exact sound_requestStatus (sound_leaveRunning h (not_not.mp hs))

end stop

end Sys2Proof.Machine

/-! SUPPORT. Every command and event keeps the invariant of the station, and the statement. -/

namespace Sys2Proof.Machine

/-! ## The commands -/

section commands

variable {L : Prop} {s : State}

/-- The oldest record leaves, and the list is served (R77, R78). -/
theorem sound_takeRecordBody (h : Sound L s) : Sound L (takeRecordBody s).1 := by
  unfold takeRecordBody
  split
  · exact h
  · split
    · exact h
    · next r rest hr =>
      have honly : Only [.journal] s { s with journal := { s.journal with records := rest } } := by
        intro p hp; cases p <;> simp_all [Part.same]
      have hroom := h.tower.room
      rw [hr, List.length_cons] at hroom
      exact sound_serve (h.keep ⟨h.tower.fits, h.tower.lit, h.tower.pours, h.tower.reserved,
        by show rest.length + s.journal.reserved ≤ 64; omega, h.tower.nodup, h.tower.waiting⟩ honly
        (by simp))

/-- A queue of orders is written (R53). -/
theorem sound_orders (h : Sound L s) (i : LineNo) (os : List Order) :
    Sound L (s.setLine i { s.line i with orders := os }) :=
  h.unseen rfl rfl rfl rfl rfl rfl rfl

theorem sound_orderBody (h : Sound L s) (line : Byte) (tag volume : BitVec 16) :
    Sound L (orderBody line tag volume s).1 := by
  unfold orderBody
  split
  · exact h
  · split
    · exact h
    · split
      · exact h
      · split
        · exact h
        · exact sound_orders h _ _

theorem sound_cancelBody (h : Sound L s) (line : Byte) (tag : BitVec 16) :
    Sound L (cancelBody line tag s).1 := by
  unfold cancelBody
  split
  · exact h
  · split
    · exact h
    · split
      · exact sound_orders h _ _
      · split
        · split
          · exact sound_endPour h _ ‹_›
          · exact h
        · exact h

theorem sound_pourStopBody (h : Sound L s) (line : Byte) : Sound L (pourStopBody line s).1 := by
  unfold pourStopBody
  split
  · exact h
  · split
    · exact h
    · split
      · exact sound_endPour h _ ‹_›
      · exact sound_refuseEntry_ready h ‹_›
      · exact h.unseen rfl rfl rfl rfl rfl rfl rfl
      · exact h

theorem sound_unlockBody (h : Sound L s) (line : Byte) : Sound L (unlockBody line s).1 := by
  unfold unlockBody
  split
  · exact h
  · split
    · exact h
    · split
      · exact h
      · exact h.keep (tower_clearLock h.tower) (clearLock_spec _ s).2.2 (by simp)

/-- A gain is set: the lines that are configured, and their sources, stay (R48). -/
theorem sound_setGain (h : Sound L s) (i : LineNo) (g : Int) : Sound L (setGain i g s) := by
  have hconf : ∀ j, (setGain i g s).configured j = s.configured j := fun j => by
    cases hc : s.config <;> simp [State.configured, State.cfg, setGain, hc]
  have hsource : ∀ j, ((setGain i g s).lineCfg j).source = (s.lineCfg j).source := fun j => by
    cases hc : s.config with
    | none => simp [State.lineCfg, State.cfg, setGain, hc]
    | some c =>
      by_cases hj : i = j
      · subst hj; simp [State.lineCfg, State.cfg, setGain, hc]
      · simp [State.lineCfg, State.cfg, setGain, hc, Fin.val_inj, hj]
  refine h.of_same rfl ⟨hconf, fun j => ?_, rfl⟩ rfl rfl rfl rfl Option.map_eq_none_iff rfl rfl rfl
    rfl rfl
  unfold State.sourceEmpty
  rw [hsource]
  rfl

theorem sound_calibrateBody (h : Sound L s) (line : Byte) (va : BitVec 32) :
    Sound L (calibrateBody line va s).1 := by
  unfold calibrateBody
  split
  · exact h
  · split
    · exact h
    · split
      · exact h
      · split
        · exact h
        · simp only
          split
          · exact h
          · exact sound_setGain h _ _

theorem sound_sourceChangeBody (h : Sound L s) (source : Byte) (full : BitVec 32) :
    Sound L (sourceChangeBody source full s).1 := by
  unfold sourceChangeBody
  split
  · exact h
  · split
    · exact h
    · split
      · exact h
      · split
        · exact h
        · exact sound_selectFrame (sound_modLink (sound_newGeneration h _ _ _ _) _)

theorem sound_clearMuteBody (h : Sound L s) : Sound L (clearMuteBody s).1 := by
  unfold clearMuteBody
  split
  · exact h
  · exact sound_requestStatus (sound_modLink h _)

/-- A run that passes the tests of R174 is started. -/
theorem sound_cleanStartBody (h : Sound L s) (entry lines : Byte) :
    Sound L (cleanStartBody entry lines s).1 := by
  unfold cleanStartBody
  split
  · exact h
  · next hstation =>
    split
    · exact h
    · next hidle =>
      split
      · exact h
      · split
        · exact h
        · next harg =>
          split
          · exact h
          · next hroom =>
            refine sound_acceptRun h _ (not_not.mp hstation) (not_not.mp hidle) (fun i hi => ?_)
              (not_lt.mp hroom)
            simp only [Bool.or_eq_true, not_or, Bool.not_eq_true', Bool.not_eq_false] at harg
            exact List.all_eq_true.mp harg.2 i hi

theorem sound_cleanAbortBody (h : Sound L s) : Sound L (cleanAbortBody s).1 := by
  unfold cleanAbortBody
  split
  · exact h
  · simp only [accept]
    exact sound_abortRun h

theorem sound_readLineBody (h : Sound L s) (line : Byte) : Sound L (readLineBody line s).1 := by
  unfold readLineBody
  split
  · exact h
  · split <;> exact h

theorem sound_readSourceBody (h : Sound L s) (source : Byte) :
    Sound L (readSourceBody source s).1 := by
  unfold readSourceBody
  split
  · exact h
  · split <;> exact h

theorem sound_readPeerBody (h : Sound L s) (station : Byte) :
    Sound L (readPeerBody station s).1 := by
  unfold readPeerBody
  split
  · exact h
  · split
    · exact h
    · split <;> exact h

theorem sound_readLinkBody (h : Sound L s) : Sound L (readLinkBody s).1 := by
  unfold readLinkBody
  split
  · exact h
  · simp only [accept]
    exact sound_modLink h _

theorem sound_readAttentionBody (h : Sound L s) : Sound L (readAttentionBody s).1 :=
  h.of_only (ps := [.attn]) (by intro p hp; cases p <;> simp_all [readAttentionBody, accept, Part.same])
    (by decide)

end commands

/-! ## The events -/

section events

variable {L : Prop} {s t : State} {i : LineNo}

theorem sound_takeHandle (h : Sound L s) (i : LineNo) (closed : Bool) :
    Sound L (takeHandle i closed s) :=
  h.unseen rfl rfl rfl rfl rfl rfl rfl

theorem sound_takeKey (h : Sound L s) (i : LineNo) (k : Key) : Sound L (takeKey i k s) := by
  cases k with
  | a => exact h.unseen rfl rfl rfl rfl rfl rfl rfl
  | b => exact h.unseen rfl rfl rfl rfl rfl rfl rfl

theorem sound_takeMeter (h : Sound L s) (i : LineNo) : Sound L (takeMeter i s) :=
  h.unseen rfl rfl rfl rfl rfl rfl rfl

/-- A test decides whether an event acts. -/
theorem sound_ite {c : Prop} [Decidable c] {u v : State} (hu : c → Sound L u)
    (hv : ¬ c → Sound L v) : Sound L (if c then u else v) := by
  split
  · exact hu ‹_›
  · exact hv ‹_›

/-- The refuse flash of a line ends, and its lamp follows (R6). -/
theorem sound_flashEnd (h : Sound L s) :
    Sound L (relamp i (s.setLine i { s.line i with flashFrom := none })) := by
  obtain ⟨hline, hlamp⟩ := relamp_line i (s.setLine i { s.line i with flashFrom := none })
  rw [line_setLine_same] at hline
  have hother := (setLine_others s i { s.line i with flashFrom := none }).trans (relamp_others i _)
  have honly := (setLine_only s i { s.line i with flashFrom := none }).trans (relamp_only i _)
  have hfits : (s.post i).fits { s.line i with flashFrom := none } :=
    (h.tower.fits i).congr rfl rfl rfl rfl rfl fun hc => ((h.tower.fits i).clauses.bare hc).2.symm
  exact h.keep (h.tower.stays hline (fun _ => hlamp) hother honly (by decide) hfits rfl Iff.rfl) honly
    (by simp)

/-- The full drive of an open valve gives way to the hold (R7). -/
theorem sound_execValveHoldDrive (h : Sound L s) (he : execValveHoldDrive i s = .next t) :
    Sound L t := by
  obtain rfl := Host.Outcome.next.inj he
  refine sound_powered h ?_
  split
  · next hv =>
    have hfits : (s.post i).fits { s.line i with valve := .hold } := by
      have hfits := h.tower.fits i
      unfold Post.fits at hfits ⊢
      cases hs : (s.line i).state <;> simp_all [Line.empty, Post.marks]
    exact h.writes hfits rfl rfl rfl
  · exact h

theorem sound_execPourCompletion (h : Sound L s) (he : execPourCompletion i s = .next t) :
    Sound L t := by
  obtain rfl := Host.Outcome.next.inj he
  refine sound_powered h ?_
  split
  · exact sound_complete h ‹_›
  · exact h

theorem sound_execIdleGapExpiry (h : Sound L s) (he : execIdleGapExpiry s = .next t) :
    Sound L t := by
  obtain rfl := Host.Outcome.next.inj he
  refine sound_powered h ?_
  split
  · exact sound_modLink h _
  · exact sound_modLink h _
  · exact h

theorem sound_execPeerExpiry (h : Sound L s) (station : Byte)
    (he : execPeerExpiry station s = .next t) : Sound L t := by
  obtain rfl := Host.Outcome.next.inj he
  refine sound_powered h ?_
  split
  · exact h
  · split
    · exact h
    · exact sound_ite (fun _ => sound_evaluateClaim (sound_staleRegrant (sound_setPeer h _ _))) fun _ => h

theorem sound_execFlowTimeout (h : Sound L s) (he : execFlowTimeout s = .next t) : Sound L t := by
  obtain rfl := Host.Outcome.next.inj he
  exact sound_powered h (sound_stepEvent h fun _ _ =>
    sound_ite (fun _ => sound_afterFlagChange (h.cleans rfl rfl rfl rfl rfl)) fun _ => h)

theorem sound_execResponseReady (h : Sound L s) (he : execResponseReady s = .next t) :
    Sound L t := by
  obtain rfl := Host.Outcome.next.inj he
  refine sound_powered h ?_
  split
  · exact sound_port h _
  · exact h

theorem sound_seconds (h : Sound L s) (n : BitVec 32) (since : Option Nat) :
    Sound L { s with seconds := n, secondFrom := since } :=
  h.of_only (ps := [.seconds]) (by intro p hp; cases p <;> simp_all [Part.same]) (by decide)

theorem sound_pending (h : Sound L s) (is : List Instr) : Sound L { s with pending := is } :=
  h.of_only (ps := [.pending]) (by intro p hp; cases p <;> simp_all [Part.same]) (by decide)

theorem sound_rstn (h : Sound L s) (low : Bool) : Sound L { s with rstnLow := low } :=
  h.of_only (ps := [.rstn]) (by intro p hp; cases p <;> simp_all [Part.same]) (by decide)

/-- An event whose outcome is a next state keeps what its operation keeps. -/
theorem sound_next {u : State}
    (he : (Host.Outcome.next u : Host.Outcome State Fault Refusal) = .next t) (hu : Sound L u) :
    Sound L t :=
  Host.Outcome.next.inj he ▸ hu

/-- Every command and event keeps the invariant of the station. -/
theorem sound_exec (h : Sound L s) (c : Instr) (he : exec c s = .next t) : Sound L t := by
  cases c with
  | configure image => exact sound_next he (sound_command h fun _ hu => sound_configureBody hu image)
  | start => exact sound_next he (sound_command h fun _ hu => sound_startBody hu)
  | stop => exact sound_next he (sound_command h fun _ hu => sound_stopBody hu)
  | reset => exact sound_next he (sound_command h fun _ hu => sound_port hu _)
  | readStatus => exact sound_next he (sound_command h fun _ hu => hu)
  | readLine line => exact sound_next he (sound_command h fun _ hu => sound_readLineBody hu line)
  | readSource source =>
    exact sound_next he (sound_command h fun _ hu => sound_readSourceBody hu source)
  | readPeer station =>
    exact sound_next he (sound_command h fun _ hu => sound_readPeerBody hu station)
  | readLink => exact sound_next he (sound_command h fun _ hu => sound_readLinkBody hu)
  | readAttention => exact sound_next he (sound_command h fun _ hu => sound_readAttentionBody hu)
  | takeRecord => exact sound_next he (sound_command h fun _ hu => sound_takeRecordBody hu)
  | order line tag volume =>
    exact sound_next he (sound_command h fun _ hu => sound_orderBody hu line tag volume)
  | cancel line tag =>
    exact sound_next he (sound_command h fun _ hu => sound_cancelBody hu line tag)
  | pourStop line => exact sound_next he (sound_command h fun _ hu => sound_pourStopBody hu line)
  | unlock line => exact sound_next he (sound_command h fun _ hu => sound_unlockBody hu line)
  | calibrate line va =>
    exact sound_next he (sound_command h fun _ hu => sound_calibrateBody hu line va)
  | sourceChange source full =>
    exact sound_next he (sound_command h fun _ hu => sound_sourceChangeBody hu source full)
  | cleanStart entry lines =>
    exact sound_next he (sound_command h fun _ hu => sound_cleanStartBody hu entry lines)
  | cleanAbort => exact sound_next he (sound_command h fun _ hu => sound_cleanAbortBody hu)
  | clearMute => exact sound_next he (sound_command h fun _ hu => sound_clearMuteBody hu)
  | commandNotExecuted => exact sound_next he (sound_command h fun _ hu => hu)
  | readPeriod bytes =>
    exact sound_next he (sound_powered h (sound_ite (fun _ => h) fun _ => sound_readOut h bytes))
  | responseReady => exact sound_execResponseReady h he
  | resetResponseTimeout =>
    exact sound_next he (sound_powered h (sound_ite (fun _ => sound_resetAct s) fun _ => h))
  | rstnAssert => exact sound_next he (sound_rstn (sound_resetAct s) true)
  | rstnRelease => exact sound_next he (sound_resetAct s)
  | portReadyAfterReset =>
    exact sound_next he (sound_powered h (sound_ite (fun _ => sound_port h _) fun _ => h))
  | handlePress i =>
    have ht := sound_takeHandle h i true
    exact sound_next he (sound_powered h (sound_ite (fun hc => sound_pressHandle ht hc) fun _ => ht))
  | handleRelease i =>
    have ht := sound_takeHandle h i false
    exact sound_next he (sound_powered h (sound_ite (fun _ => sound_releaseHandle ht) fun _ => ht))
  | keyPress i k =>
    have ht := sound_takeKey h i k
    exact sound_next he (sound_powered h (sound_ite (fun hc => sound_pressKey ht k hc) fun _ => ht))
  | keyEntryExpiry i =>
    exact sound_next he (sound_powered h (sound_ite
      (fun hk => sound_refuseEntry_ready h (h.waiting_of_any hk)) fun _ => h))
  | refuseFlashEnd i =>
    exact sound_next he (sound_powered h (sound_ite (fun _ => sound_flashEnd h) fun _ => h))
  | valveHoldDrive i => exact sound_execValveHoldDrive h he
  | meterPulse i => exact sound_next he (sound_powered h (sound_takePulse (sound_takeMeter h i)))
  | noFlowExpiry i => exact sound_next he (sound_powered h (sound_endIfPouring h .noFlow))
  | pourTimerExpiry i => exact sound_next he (sound_powered h (sound_endIfPouring h .timeLimit))
  | pourCompletion i => exact sound_execPourCompletion h he
  | stationSecondsTick =>
    exact sound_next he (sound_powered h (sound_ite (fun _ => h) fun _ => sound_seconds h _ _))
  | validFrameArrival frame =>
    exact sound_next he (sound_powered h (sound_ite (fun _ => sound_arriveFrame h frame) fun _ => h))
  | frameDiscarded check =>
    exact sound_next he (sound_powered h (sound_ite (fun _ => sound_modLink h _) fun _ => h))
  | idleGapExpiry => exact sound_execIdleGapExpiry h he
  | announcementTimerExpiry =>
    exact sound_next he (sound_powered h (sound_ite (fun _ => h) fun _ =>
      sound_requestStatus (sound_modLink h _)))
  | accessWaitExpiry =>
    exact sound_next he (sound_powered h (sound_ite (fun _ => h) fun _ => sound_startAttempt h))
  | collision => exact sound_next he (sound_powered h (sound_collide h))
  | transmitSuccess => exact sound_next he (sound_powered h (sound_succeed h))
  | peerExpiry station => exact sound_execPeerExpiry h station he
  | sensorSample code =>
    exact sound_next he (sound_powered h (sound_ite (fun _ => h) fun _ => sound_sample h code))
  | glycolFrameStart =>
    exact sound_next he (sound_powered h (sound_ite (fun _ => h) fun _ => sound_cool h _ rfl))
  | glycolOnTimeEnd => exact sound_next he (sound_powered h (sound_cool h _ rfl))
  | conditionPinChange pin level =>
    exact sound_next he (sound_powered h (sound_ite (fun _ => h) fun _ =>
      sound_afterFlagChange (h.cleans rfl rfl rfl rfl rfl)))
  | flowTimeout => exact sound_execFlowTimeout h he
  | dwellExpiry =>
    exact sound_next he (sound_powered h (sound_stepEvent h fun p hr => sound_dwellExpires h hr p))
  | limitExpiry =>
    exact sound_next he (sound_powered h (sound_stepEvent h fun p hr => sound_limitExpires h hr p))
  | runLimitExpiry =>
    exact sound_next he (sound_powered h (sound_stepEvent h fun _ hr => sound_endRunning h .failed hr))
  | characterStart =>
    exact sound_next he (sound_powered h (sound_ite (fun _ => h) fun _ => sound_modLink h _))
  | characterTaken value err => exact sound_next he (sound_powered h (sound_takeChar h value err))
  | lampBlinkPhase i =>
    exact sound_next he (sound_powered h (sound_ite
      (fun _ => h.unseen rfl rfl rfl rfl rfl rfl rfl) fun _ => h))

end events

/-! ## The step -/

section step

variable {L : Prop} {s t : State}

theorem sound_takeDue (h : Sound L s) (c : Instr) : Sound L (takeDue c s) := by
  rw [takeDue_eq]
  exact sound_modLink h fun k => { k with recv := _ }

/-- A unit of time is seen by the inputs alone (R4, R31, R101, R158). -/
theorem sound_tick (h : Sound L s) : Sound L (tick s) := by
  cases hr : s.rstnLow with
  | true =>
    rw [tick_reset hr]
    exact h.of_only (ps := [.now]) (by intro p hp; cases p <;> simp_all [Part.same]) (by decide)
  | false =>
    have honly := tick_only s
    have hline := tick_line hr
    have hclean := tick_clean hr
    have hpost : (tick s).post = s.post := post_congr (honly .station (by simp))
      (configured_congr (honly .config (by simp))) (by rw [hclean]) (by rw [hclean]) (by rw [hclean])
    have htower : Tower s.post (fun _ => L) (tick s) := by
      refine h.tower.of_lines (fun i => ?_) (fun i => by rw [hline]; rfl) (fun i => by rw [hline]; rfl)
        (fun i => by rw [hline]; rfl) (.of_only honly (by simp)) (honly .starts (by simp))
        (honly .pours (by simp)) ?_ ?_
      · rw [hline]; exact (h.tower.fits i).congr rfl rfl rfl rfl rfl fun _ => rfl
      · rw [show (tick s).journal = s.journal from honly .journal (by simp),
          show (tick s).pours = s.pours from honly .pours (by simp), hclean]
        exact h.tower.reserved
      · rw [show (tick s).journal = s.journal from honly .journal (by simp)]; exact h.tower.room
    refine .of_tower (by rw [hpost]; exact htower) ?_ ?_ ?_ ?_ ?_
    · rw [hclean]; exact h.shape.idle
    · rw [hclean]; exact h.shape.running
    · rw [hclean]; exact h.shape.slots
    · rw [show (tick s).station = s.station from honly .station (by simp),
        show (tick s).config = s.config from honly .config (by simp)]
      exact h.shape.config
    · rw [show (tick s).station = s.station from honly .station (by simp), hclean]
      exact fun hs => (h.shape.shut hs).1

theorem sound_step (h : Sound L s) (hstep : step s = .next t) : Sound L t := by
  cases hp : s.pending with
  | cons c rest =>
    simp only [step, hp] at hstep
    exact sound_exec (sound_pending h rest) c hstep
  | nil =>
    simp only [step, hp, idleStep] at hstep
    cases hd : due s with
    | some c =>
      rw [hd] at hstep
      exact sound_exec (sound_takeDue h c) c hstep
    | none =>
      rw [hd] at hstep
      exact sound_next hstep (sound_tick h)

end step

/-- Settles O57: every step keeps what the station holds of its lines, its list, its journal and its run; and
the lamps, if they followed before. -/
theorem stationKept : Obligations.StationKept := by
  intro s t hs hstep
  exact stationOk_lampsOk_iff.mpr (sound_step (stationOk_lampsOk_iff.mp ⟨hs, id⟩) hstep)

end Sys2Proof.Machine

/-! SUPPORT. Generations compared, a new generation, and the statements about them (R88 to R91). -/

namespace Sys2Proof.Machine

/-! ## Generations -/

/-- The distance of R88 in natural numbers. -/
theorem genOrder_eq (g v : BitVec 8) : genOrder g v =
    let d := (g.toNat + 256 - v.toNat) % 256
    if d = 0 then .equal else if d ≤ 127 then .newer else .older := by
  have h : (g - v).toNat = (g.toNat + 256 - v.toNat) % 256 := by
    have hg := g.isLt
    have hv := v.isLt
    rw [BitVec.toNat_sub]
    omega
  simp only [genOrder, h]

/-- Settles O48: the model's comparison is the distance of R88, and R88's two examples come out by it. -/
theorem generationOrder : Obligations.GenerationOrder :=
  ⟨genOrder_eq, by decide, by decide⟩

/-- The distance is 0 between equal generations alone. -/
theorem distance_eq_zero {g v : BitVec 8} : (g.toNat + 256 - v.toNat) % 256 = 0 ↔ g = v := by
  have hg := g.isLt
  have hv := v.isLt
  rw [← BitVec.toNat_inj]
  omega

theorem genOrder_equal_iff {g v : BitVec 8} : genOrder g v = .equal ↔ g = v := by
  rw [genOrder_eq, ← distance_eq_zero]
  simp only
  split
  · simpa
  · split <;> simpa

theorem genOrder_newer_iff {g v : BitVec 8} : genOrder g v = .newer ↔
    1 ≤ (g.toNat + 256 - v.toNat) % 256 ∧ (g.toNat + 256 - v.toNat) % 256 ≤ 127 := by
  rw [genOrder_eq]
  simp only
  split
  · simp; omega
  · split <;> simp <;> omega

theorem genOrder_older_iff {g v : BitVec 8} : genOrder g v = .older ↔
    128 ≤ (g.toNat + 256 - v.toNat) % 256 := by
  rw [genOrder_eq]
  simp only
  split
  · simp; omega
  · split <;> simp <;> omega

/-! ## A source takes a new generation -/

/-- The peer draw reads the peer records and the view's generation alone (R83). -/
theorem peerDraw_congr {s t : State} {x : SourceNo} (hp : t.peers = s.peers)
    (hg : (t.source x).gen = (s.source x).gen) : t.peerDraw x = s.peerDraw x := by
  simp only [State.peerDraw, State.peerList, hp, hg]

theorem linesOn_nodup (s : State) (x : SourceNo) : (s.linesOn x).Nodup := allLines_nodup.filter _

theorem mem_linesOn {s : State} {x : SourceNo} {i : LineNo} :
    i ∈ s.linesOn x ↔ (s.configured i && (s.lineCfg i).source == x) = true := by
  simp [State.linesOn, mem_allLines]

theorem liftFoam_others (i : LineNo) (s : State) : OtherLines i s (liftFoam i s) := by
  have hc : OtherLines i s (if (s.line i).lock = .foamOut then clearLock i s else s) := by
    split
    · exact (clearLock_spec i s).2.1
    · exact OtherLines.refl i s
  unfold liftFoam
  simp only
  split
  · split
    · exact hc.trans (setLine_others _ i _)
    · exact hc
  · exact hc

/-- The foam lock of a line is lifted, and a foam end still in AFTER-RUN is withdrawn (R25). -/
theorem liftFoam_line (i : LineNo) (s : State) :
    ((liftFoam i s).line i).sansLamp = (liftedLine (s.line i)).sansLamp := by
  obtain ⟨u, hu⟩ : ∃ u, u = if (s.line i).lock = .foamOut then clearLock i s else s := ⟨_, rfl⟩
  have hline : (u.line i).sansLamp = ({ s.line i with
      lock := if (s.line i).lock = .foamOut then .clear else (s.line i).lock,
      state := if (s.line i).lock = .foamOut ∧ (s.line i).state = .locked then .ready
        else (s.line i).state } : Line).sansLamp := by
    rw [hu]
    by_cases hl : (s.line i).lock = .foamOut
    · simpa [hl] using (clearLock_spec i s).1.1
    · simp [hl]
  unfold liftFoam
  simp only [← hu]
  split
  next p hs hp =>
    split
    next he =>
      rw [line_setLine_same]
      calc ({ u.line i with pour := some { p with foamWithdrawn := true } } : Line).sansLamp
        _ = { (u.line i).sansLamp with pour := some { p with foamWithdrawn := true } } := rfl
        _ = (liftedLine (s.line i)).sansLamp := by
          simp only [hline, liftedLine, hs, hp, he, Option.map_some, and_self, if_true]
          rfl
    next he =>
      rw [hline, liftedLine]
      simp only [hp, he, Option.map_some, and_false, if_false]
  next hn =>
    have hp : (s.line i).pour.map (fun p => if (s.line i).state = .afterRun ∧
        p.endReason = some .foamOut then { p with foamWithdrawn := true } else p) = (s.line i).pour := by
      cases hpour : (s.line i).pour with
      | none => rfl
      | some p =>
        have hs : (s.line i).state ≠ .afterRun := fun hs => hn p hs hpour
        simp [hs]
    rw [hline, liftedLine, hp]

/-- A new generation (R89, R90): the figures restart, LOW is the low test's, and of the lines those of the
source alone are lifted. -/
theorem newGeneration_spec (x : SourceNo) (gen : BitVec 8) (full : Nat) (empty : Bool) (s : State) :
    let t := newGeneration x gen full empty s
    t.source x = { gen, full, own := 0, carry := 0, empty, low := (t.source x).low } ∧
    ((t.source x).low = true ↔ full ≠ 0 ∧ full - t.peerDraw x ≤ s.cfg.lowThreshold[x]) ∧
    OtherSources x s t ∧
    t.attn = (if (t.source x).low then s.attn.set .sourceLow else s.attn) ∧
    ∀ i : LineNo, (t.line i).sansLamp =
      (if s.configured i && (s.lineCfg i).source == x then liftedLine (s.line i)
        else s.line i).sansLamp := by
  obtain ⟨s1, hs1⟩ : ∃ s1, s1 = s.setSource x { gen, full, own := 0, carry := 0, empty, low := false } :=
    ⟨_, rfl⟩
  obtain ⟨v, hv⟩ : ∃ v, v = overLines liftFoam (s1.linesOn x) s1 := ⟨_, rfl⟩
  obtain ⟨w, hw⟩ : ∃ w, w = relampSource x v := ⟨_, rfl⟩
  have e : newGeneration x gen full empty s = lowTest x w := by rw [hw, hv, hs1]; rfl
  have hsv : Only [.lines] s1 v := hv ▸ overLines_only liftFoam_only _ _
  have hvw : Only [.lines] v w := hw ▸ overLines_only relamp_only _ _
  have h1w : Only [.lines] s1 w := hsv.trans hvw
  obtain ⟨hsource, hlow, hother, hattn⟩ := lowTest_spec x w
  have hwt := lowTest_only x w
  have hpeers : (lowTest x w).peers = w.peers := hwt .peers (by simp)
  have hwx : w.source x = { gen, full, own := 0, carry := 0, empty, low := false } := by
    rw [source_congr (h1w .sources (by simp)), hs1, source_setSource_same]
  have hcfg : w.cfg = s.cfg := by
    simp only [State.cfg, show w.config = s1.config from h1w .config (by simp), hs1, setSource_config]
  have hdrawn : w.drawn x = (lowTest x w).peerDraw x := by
    rw [peerDraw_congr hpeers (by rw [hsource]), State.drawn, hwx]
    simp
  rw [hwx] at hsource hlow hattn
  rw [hcfg, hdrawn] at hlow
  rw [e]
  refine ⟨hsource, by simpa using hlow, fun y hy => ?_, ?_, fun i => ?_⟩
  · rw [hother y hy, source_congr (h1w .sources (by simp)), hs1, source_setSource_ne s _ hy]
  · rw [hattn, show w.attn = s.attn from (h1w .attn (by simp)).trans (by rw [hs1]; rfl)]
    simp
  · rw [line_congr (hwt .lines (by simp)), hw, relampSource, (overLines_relamp_keeps _ i v).1, hv]
    rw [show s1.linesOn x = s.linesOn x by rw [hs1]; rfl]
    have hline : s1.line i = s.line i := by rw [hs1]; rfl
    by_cases hi : i ∈ s.linesOn x
    · rw [overLines_sansLamp liftFoam_others liftFoam_only (linesOn_nodup s x) hi
        (l := liftedLine (s.line i)) fun u _ hu => by rw [liftFoam_line, hu, hline]]
      rw [if_pos (mem_linesOn.mp hi)]
    · rw [overLines_others liftFoam_others _ _ _ hi, if_neg (mt mem_linesOn.mpr hi), hline]

/-- A new generation that is not EMPTY, as the statements give it (R89, R90, R91). -/
theorem newGeneration_takes (x : SourceNo) (gen : BitVec 8) (full : Nat) (s : State) :
    TakesGeneration x gen full s (newGeneration x gen full false s) :=
  newGeneration_spec x gen full false s

/-- A new generation taken stands where sources, lines, attention set and peer records stand. -/
theorem TakesGeneration.of_only {x : SourceNo} {gen : BitVec 8} {full : Nat} {s t u : State}
    {ps : List Part} (h : TakesGeneration x gen full s t) (hu : Only ps t u)
    (hps : .sources ∉ ps ∧ .peers ∉ ps ∧ .attn ∉ ps ∧ .lines ∉ ps) :
    TakesGeneration x gen full s u := by
  obtain ⟨hsources, hpeers, hattn, hlines⟩ := hps
  have hx := source_congr (hu .sources hsources)
  unfold TakesGeneration OtherSources at h ⊢
  simpa only [hx, peerDraw_congr (x := x) (hu .peers hpeers) (by rw [hx]),
    show u.attn = t.attn from hu .attn hattn, line_congr (hu .lines hlines)] using h

/-! ## Frames that arrive -/

/-- The receive assembly goes to HUNT (R104). -/
def hunting (s : State) : State := modLink (fun k => { k with rx := .hunt }) s

theorem hunting_only (s : State) : Only [.link] s (hunting s) := modLink_only _ s

/-- A valid frame taken in HUNT or ASSEMBLY is handed on, the assembly in HUNT (R104, R107). -/
theorem exec_validFrameArrival {f : LinkFrame} {s : State} (hr : s.rstnLow = false) (hwf : f.wf = true)
    (hl : s.link.rx.listening = true) :
    exec (.validFrameArrival f) s = .next (handFrame f (hunting s)) := by
  have h : powered s (fun s => if s.link.rx.listening then arriveFrame f s else s) =
      handFrame f (hunting s) := by
    rw [powered, hr, if_neg Bool.false_ne_true, hl, if_pos rfl, arriveFrame, hwf, if_pos rfl, hunting]
  exact congrArg Host.Outcome.next h

/-- A CHANGE of a peer (R107). -/
theorem exec_change {station : Byte} {b : ChangeBody} {s : State} (hr : s.rstnLow = false)
    (hst : stationInRange station = true) (hn : station.toNat ≠ s.cfg.station)
    (hl : s.link.rx.listening = true) :
    exec (.validFrameArrival ⟨station, .change b⟩) s = .next (takeChange b (hunting s)) := by
  rw [exec_validFrameArrival hr (by simp [LinkFrame.wf, FrameBody.wf, hst]) hl, handFrame,
    if_neg (show ¬ station.toNat = (hunting s).cfg.station from hn)]

/-! ## CHANGE frames -/

section change

variable {b : ChangeBody} {s : State} {x : SourceNo}

theorem takeChange_none (h : 16 ≤ b.source.toNat) : takeChange b s = s := by
  rw [takeChange, dif_neg (Nat.not_lt.mpr h)]

/-- A CHANGE for a source, by the order of its generation (R91). -/
theorem takeChange_spec (h : b.source.toNat = x.val) :
    (genOrder b.gen (s.source x).gen = .older → takeChange b s = s) ∧
    (genOrder b.gen (s.source x).gen = .equal →
      takeChange b s = lowTest x (s.setSource x { s.source x with full := b.full.toNat })) ∧
    (genOrder b.gen (s.source x).gen = .newer →
      takeChange b s = newGeneration x b.gen b.full.toNat false s) := by
  have hb : b.source.toNat < 16 := h ▸ x.isLt
  have hx : (⟨b.source.toNat, hb⟩ : SourceNo) = x := Fin.ext h
  rw [takeChange, dif_pos hb]
  simp only [hx]
  exact ⟨fun ho => by rw [ho], fun ho => by rw [ho],
    fun ho => by rw [ho, adopt, if_neg Bool.false_ne_true]⟩

/-- A full volume replaced, and the low test made (R84, R91). -/
theorem lowTest_full (x : SourceNo) (full : Nat) (s : State) :
    let t := lowTest x (s.setSource x { s.source x with full })
    t.source x = { s.source x with full, low := (t.source x).low } ∧
    ((t.source x).low = true ↔ (s.source x).low = true ∨
      (full ≠ 0 ∧ full - s.drawn x ≤ s.cfg.lowThreshold[x])) ∧
    t.attn = (if (t.source x).low && !(s.source x).low then s.attn.set .sourceLow else s.attn) ∧
    OtherSources x s t ∧ Only [.sources, .attn] s t := by
  obtain ⟨v, hv⟩ : ∃ v, v = s.setSource x { s.source x with full } := ⟨_, rfl⟩
  have hvx : v.source x = { s.source x with full } := by rw [hv, source_setSource_same]
  have hdrawn : v.drawn x = s.drawn x :=
    drawn_congr (by rw [hv]; rfl) (by rw [hvx]) (by rw [hvx]) (by rw [hvx])
  have hcfg : v.cfg = s.cfg := by rw [hv]; rfl
  obtain ⟨hsource, hlow, hother, hattn⟩ := lowTest_spec x v
  rw [hvx] at hsource hlow hattn
  rw [hdrawn, hcfg] at hlow
  rw [show v.attn = s.attn by rw [hv]; rfl] at hattn
  simp only [← hv]
  refine ⟨hsource, hlow, hattn, fun y hy => ?_, ?_⟩
  · rw [hother y hy, hv, source_setSource_ne s _ hy]
  · exact ((hv ▸ setSource_only s x _ : Only [.sources] s v).mono (by simp)).trans (lowTest_only x v)

end change

/-- Settles O41, by the order of the frame's generation. -/
theorem changeFrame : Obligations.ChangeFrame := by
  intro station b s hr hst hn hl
  simp only [exec_change hr hst hn hl]
  refine ⟨fun hb => by rw [takeChange_none hb]; rfl, fun x hx => ?_⟩
  have honly := hunting_only s
  have hsource : (hunting s).source x = s.source x := source_congr (honly .sources (by simp)) x
  obtain ⟨holder, hequal, hnewer⟩ := takeChange_spec (s := hunting s) hx
  rw [hsource] at holder hequal hnewer
  refine ⟨fun hd => ?_, fun hd => ?_, fun h1 h2 => ?_⟩
  · rw [holder (genOrder_older_iff.mpr hd)]
    rfl
  · rw [hequal (genOrder_equal_iff.mpr (distance_eq_zero.mp hd))]
    obtain ⟨hfull, hlow, hattn, hother, ht⟩ := lowTest_full x b.full.toNat (hunting s)
    exact ⟨_, rfl, ht .link (by simp), hfull, hlow, hattn, hother,
      (honly.mono (by simp)).trans (ht.mono (by simp))⟩
  · rw [hnewer (genOrder_newer_iff.mpr ⟨h1, h2⟩)]
    have ht := newGeneration_only x b.gen b.full.toNat false (hunting s)
    exact ⟨_, rfl, ht .link (by simp), newGeneration_takes x b.gen b.full.toNat (hunting s),
      (honly.mono (by simp)).trans (ht.mono (by simp))⟩

/-! ## SOURCE-CHANGE -/

/-- A CHANGE joins the tail of its list, and becomes current when nothing else is (R110). -/
theorem chooseFrame_change (k : Link) (b : ChangeBody) :
    Link.chooseFrame { k with changes := k.changes ++ [b] } = { k with
      changes := k.changes ++ [b],
      current := match k.current with
        | some c => some c
        | none => some ⟨.change, 0⟩ } := by
  unfold Link.chooseFrame
  cases hc : k.current <;> simp

section sourceChange

variable {b : Byte} {full : BitVec 32} {s : State} {x : SourceNo}

/-- The state that an accepted SOURCE-CHANGE leaves, but for the port (R89, R110). -/
def changedSource (b : Byte) (full : BitVec 32) (x : SourceNo) (s : State) : State :=
  selectFrame (modLink (fun k => { k with
    changes := k.changes ++ [{ source := b, gen := (s.source x).gen + 1, full }] })
      (newGeneration x ((s.source x).gen + 1) full.toNat false s))

/-- The tests of R89 in order, and the effect. -/
theorem sourceChangeBody_eq (hs : s.station ≠ .unconfigured) (hb : b.toNat = x.val) :
    sourceChangeBody b full s =
      if s.link.mute then refuse .muted s
      else if 4 ≤ s.link.changes.length then refuse .queueFull s
      else accept [(s.source x).gen + 1] (changedSource b full x s) := by
  rw [sourceChangeBody, if_neg hs, sourceOfByte_eq hb]
  rfl

theorem changedSource_spec (b : Byte) (full : BitVec 32) (x : SourceNo) (s : State) :
    TakesGeneration x ((s.source x).gen + 1) full.toNat s (changedSource b full x s) ∧
      (changedSource b full x s).link = { s.link with
        changes := s.link.changes ++ [{ source := b, gen := (s.source x).gen + 1, full }],
        current := match s.link.current with
          | some c => some c
          | none => some ⟨.change, 0⟩ } ∧
      Only [.lines, .sources, .attn, .link] s (changedSource b full x s) := by
  obtain ⟨w, hw⟩ : ∃ w, w = newGeneration x ((s.source x).gen + 1) full.toNat false s := ⟨_, rfl⟩
  have htakes := newGeneration_takes x ((s.source x).gen + 1) full.toNat s
  have hsw := newGeneration_only x ((s.source x).gen + 1) full.toNat false s
  rw [← hw] at htakes hsw
  have hwt : Only [.link] w (changedSource b full x s) := by
    rw [changedSource, ← hw]
    exact (modLink_only _ w).trans (selectFrame_only _)
  refine ⟨htakes.of_only hwt (by simp), ?_, (hsw.mono (by simp)).trans (hwt.mono (by simp))⟩
  rw [← chooseFrame_change, ← show w.link = s.link from hsw .link (by simp), changedSource, ← hw]
  rfl

end sourceChange

/-- Settles O23: the tests of R89 in order, then the new generation and the CHANGE queued. -/
theorem sourceChangeCommand : Obligations.SourceChangeCommand := by
  intro b full s h
  refine ⟨fun hs => congrArg _ (command_unchanged h ?_),
    fun hs hb => congrArg _ (command_unchanged h ?_), fun x hs hb => ?_⟩
  · simp [sourceChangeBody, hs, refuse]
  · simp [sourceChangeBody, hs, sourceOfByte_none hb, refuse]
  · have heq := sourceChangeBody_eq (full := full) (s := beginCommand s) hs hb
    rw [show (beginCommand s).link = s.link from rfl] at heq
    refine ⟨fun hm => congrArg _ (command_unchanged h ?_),
      fun hm hq => congrArg _ (command_unchanged h ?_), fun hm hq => ?_⟩
    · rw [heq, if_pos hm]
      rfl
    · rw [heq, if_neg (by simp [hm]), if_pos hq]
      rfl
    · rw [if_neg (by simp [hm]), if_neg (Nat.not_le.mpr hq)] at heq
      obtain ⟨htakes, hlink, honly⟩ := changedSource_spec b full x (beginCommand s)
      obtain ⟨u, hu⟩ : ∃ u, u = changedSource b full x (beginCommand s) := ⟨_, rfl⟩
      rw [← hu] at heq htakes hlink honly
      obtain ⟨hcommand, hframe⟩ := command_of_only h heq honly (by simp)
      exact ⟨_, congrArg Host.Outcome.next hcommand, htakes, hlink, hframe⟩

end Sys2Proof.Machine

/-! SUPPORT. What a peer's entries make of the figures of the sources (R84, R90, R92 to R94). -/

namespace Sys2Proof.Machine

/-! ## One operation on several sources -/

section several

variable {f : SourceNo → State → State} {ps : List Part}

theorem foldSources_others (hf : ∀ x s, OtherSources x s (f x s)) (xs : List SourceNo) (s : State)
    {y : SourceNo} (hy : y ∉ xs) : (xs.foldl (fun s x => f x s) s).source y = s.source y := by
  induction xs generalizing s with
  | nil => rfl
  | cons x rest ih =>
    obtain ⟨hx, hrest⟩ := not_or.mp fun h => hy (List.mem_cons.mpr h)
    exact (ih (f x s) hrest).trans (hf x s y hx)

theorem foldSources_only (hps : ∀ x s, Only ps s (f x s)) (xs : List SourceNo) (s : State) :
    Only ps s (xs.foldl (fun s x => f x s) s) := by
  induction xs generalizing s with
  | nil => exact Only.refl ps s
  | cons x rest ih => exact (hps x s).trans (ih (f x s))

/-- Where each source's operation touches its own record alone, the operation on one of them acts on the
record as it was, and the record then stands to the end. -/
theorem foldSources_at (hf : ∀ x s, OtherSources x s (f x s)) (hps : ∀ x s, Only ps s (f x s))
    {xs : List SourceNo} (hn : xs.Nodup) {x : SourceNo} (hx : x ∈ xs) (s : State) :
    ∃ u, Only ps s u ∧ u.source x = s.source x ∧
      (xs.foldl (fun s x => f x s) s).source x = (f x u).source x := by
  induction xs generalizing s with
  | nil => simp at hx
  | cons y rest ih =>
    obtain ⟨hy, hrest⟩ := List.nodup_cons.mp hn
    rcases List.mem_cons.mp hx with rfl | hx
    · exact ⟨s, Only.refl ps s, rfl, foldSources_others hf rest _ hy⟩
    · obtain ⟨u, hu, hsource, hend⟩ := ih hrest hx (f y s)
      have hxy : x ≠ y := fun e => hy (e ▸ hx)
      exact ⟨u, (hps y s).trans hu, hsource.trans (hf y s x hxy), hend⟩

end several

theorem allSources_nodup : allSources.Nodup := by decide

theorem setSource_others (s : State) (x : SourceNo) (r : SourceRec) :
    OtherSources x s (s.setSource x r) := fun _ hy => source_setSource_ne s r hy

theorem OtherSources.refl (x : SourceNo) (s : State) : OtherSources x s s := fun _ _ => rfl

theorem OtherSources.trans {x : SourceNo} {s t u : State} (h : OtherSources x s t)
    (h' : OtherSources x t u) : OtherSources x s u := fun y hy => (h' y hy).trans (h y hy)

theorem OtherSources.of_sources {s t : State} (x : SourceNo) (h : t.sources = s.sources) :
    OtherSources x s t := fun y _ => source_congr h y

/-! ## The steps of R92 on one record -/

/-- A record once the carry rule has acted on the stored entry and the new one (R93). -/
def SourceRec.carrying (stored new : Option LinkEntry) (r : SourceRec) : SourceRec :=
  match stored with
  | some e =>
    if e.gen = r.gen then { r with carry := sat max32 (r.carry + carried r.gen e new) } else r
  | none => r

/-- A record once a new entry of the view's generation has been taken (R94). -/
def SourceRec.matching (new : Option LinkEntry) (r : SourceRec) : SourceRec :=
  match new with
  | some e =>
    if e.gen = r.gen then
      { r with full := if r.full = 0 then e.full.toNat else r.full, empty := r.empty || e.empty }
    else r
  | none => r

section steps

variable (x : SourceNo) (stored new : Option LinkEntry) (s : State)

theorem carryStep_eq : carryStep x stored new s =
    s.setSource x ((s.source x).carrying stored new) := by
  cases stored with
  | none => simp [carryStep, SourceRec.carrying]
  | some e =>
    by_cases h : e.gen = (s.source x).gen <;> simp [carryStep, SourceRec.carrying, h]

theorem setEmpty_source : (setEmpty x s).source x = { s.source x with empty := true } := by
  by_cases h : (s.source x).empty = true
  · rw [setEmpty_empty h, ← h]
  · rw [setEmpty, if_neg h, source_congr (emptyEffects_only x _ .sources (by simp)),
      source_setSource_same]

theorem setEmpty_others : OtherSources x s (setEmpty x s) := by
  unfold setEmpty
  simp only
  split
  · exact .refl x s
  · exact (setSource_others s x _).trans (.of_sources x (emptyEffects_only x _ .sources (by simp)))

theorem equalStep_source : (equalStep x new s).source x = (s.source x).matching new := by
  cases new with
  | none => rfl
  | some e =>
    by_cases hg : e.gen = (s.source x).gen
    · by_cases hf : (s.source x).full = 0 <;> by_cases he : e.empty = true <;>
        simp [equalStep, SourceRec.matching, hg, hf, he, setEmpty_source]
    · simp [equalStep, SourceRec.matching, hg]

theorem equalStep_others : OtherSources x s (equalStep x new s) := by
  have hfull : OtherSources x s (if (s.source x).full = 0 then
      s.setSource x { s.source x with full := (new.map (·.full.toNat)).getD 0 } else s) := by
    split
    · exact setSource_others s x _
    · exact .refl x s
  unfold equalStep
  simp only
  split
  · split
    · split
      · exact hfull.trans (setEmpty_others x _)
      · exact hfull
    · exact .refl x s
  · exact .refl x s

theorem equalStep_only : Only [.lines, .starts, .link, .attn, .sources] s (equalStep x new s) := by
  have hfull : Only [.lines, .starts, .link, .attn, .sources] s (if (s.source x).full = 0 then
      s.setSource x { s.source x with full := (new.map (·.full.toNat)).getD 0 } else s) := by
    split
    · exact (setSource_only s x _).mono (by simp)
    · exact Only.refl _ s
  unfold equalStep
  simp only
  split
  · split
    · split
      · exact hfull.trans (setEmpty_only x _)
      · exact hfull
    · exact Only.refl _ s
  · exact Only.refl _ s

end steps

/-! ## One source -/

/-- The new entry for a source is newer than the view (R88, R90). -/
theorem adopts_iff {s : State} {new : List LinkEntry} {x : SourceNo} : adopts s new x = true ↔
    ∃ e, listed new x = some e ∧ genOrder e.gen (s.source x).gen = .newer := by
  unfold adopts
  cases hn : listed new x with
  | none => simp
  | some e => simp [genOrder_newer_iff]

section source

variable (stored new : List LinkEntry) (x : SourceNo) (s : State)

theorem processSource_adopts {e : LinkEntry} (he : listed new x = some e)
    (ho : genOrder e.gen (s.source x).gen = .newer) :
    processSource stored new x s = adopt x e.gen e.full.toNat e.empty s := by
  simp only [processSource, show firstEntry new x = some e from he, ho, if_true]

theorem processSource_stays (h : adopts s new x = false) : processSource stored new x s =
    equalStep x (listed new x) (carryStep x (listed stored x) (listed new x) s) := by
  cases hn : listed new x with
  | none => simp only [processSource, show firstEntry new x = none from hn]; rfl
  | some e =>
    have ho : genOrder e.gen (s.source x).gen ≠ .newer := fun ho => by
      simp [adopts_iff.mpr ⟨e, hn, ho⟩] at h
    simp only [processSource, show firstEntry new x = some e from hn, ho, if_false]
    rfl

theorem adopt_others (gen : BitVec 8) (full : Nat) (empty : Bool) :
    OtherSources x s (adopt x gen full empty s) := by
  obtain ⟨-, -, hother, -⟩ := newGeneration_spec x gen full empty s
  unfold adopt
  simp only
  split
  · exact OtherSources.trans hother (.of_sources x (emptyEffects_only x _ .sources (by simp)))
  · exact hother

theorem processSource_others : OtherSources x s (processSource stored new x s) := by
  cases ha : adopts s new x with
  | true =>
    obtain ⟨e, he, ho⟩ := adopts_iff.mp ha
    rw [processSource_adopts stored new x s he ho]
    exact adopt_others x s _ _ _
  | false =>
    rw [processSource_stays stored new x s ha, carryStep_eq]
    exact (setSource_others s x _).trans (equalStep_others x _ _)

theorem processSource_only :
    Only [.lines, .starts, .link, .attn, .sources] s (processSource stored new x s) := by
  cases ha : adopts s new x with
  | true =>
    obtain ⟨e, he, ho⟩ := adopts_iff.mp ha
    rw [processSource_adopts stored new x s he ho]
    exact adopt_only x _ _ _ s
  | false =>
    rw [processSource_stays stored new x s ha, carryStep_eq]
    exact ((setSource_only s x _).mono (by simp)).trans (equalStep_only x _ _)

/-- Without a newer entry the record goes through the carry rule and the entry of its generation. -/
theorem processSource_source (h : adopts s new x = false) : (processSource stored new x s).source x =
    ((s.source x).carrying (listed stored x) (listed new x)).matching (listed new x) := by
  rw [processSource_stays stored new x s h, equalStep_source, carryStep_eq, source_setSource_same]

/-- A newer entry is adopted: its figures, and the low test on the peer draw of its generation (R90). -/
theorem processSource_adopted {e : LinkEntry} (he : listed new x = some e)
    (ho : genOrder e.gen (s.source x).gen = .newer) :
    let t := processSource stored new x s
    t.source x = { gen := e.gen, full := e.full.toNat, own := 0, carry := 0, empty := e.empty,
                   low := (t.source x).low } ∧
    ((t.source x).low = true ↔ e.full.toNat ≠ 0 ∧
      e.full.toNat - (s.setSource x { s.source x with gen := e.gen }).peerDraw x ≤
        s.cfg.lowThreshold[x]) := by
  obtain ⟨hsource, hlow, -⟩ := newGeneration_spec x e.gen e.full.toNat e.empty s
  have hx : (adopt x e.gen e.full.toNat e.empty s).source x =
      (newGeneration x e.gen e.full.toNat e.empty s).source x := by
    unfold adopt
    simp only
    split
    · exact source_congr (emptyEffects_only x _ .sources (by simp)) x
    · rfl
  have hdraw : (newGeneration x e.gen e.full.toNat e.empty s).peerDraw x =
      (s.setSource x { s.source x with gen := e.gen }).peerDraw x :=
    peerDraw_congr (newGeneration_only x _ _ _ s .peers (by simp))
      (by rw [hsource, source_setSource_same])
  rw [hdraw] at hlow
  simp only [processSource_adopts stored new x s he ho, hx]
  exact ⟨hsource, hlow⟩

end source

/-! ## Every source -/

/-- A source that either list names (R92). -/
def named (stored new : List LinkEntry) (x : SourceNo) : Prop :=
  listed stored x ≠ none ∨ listed new x ≠ none

section sources

variable {stored new : List LinkEntry} {x : SourceNo}

theorem mem_namedSources : x ∈ namedSources stored new ↔ named stored new x := by
  have h : ∀ es, (firstEntry es x).isSome = true ↔ listed es x ≠ none := fun es =>
    Option.isSome_iff_ne_none
  rw [namedSources, List.mem_filter, Bool.or_eq_true, h, h]
  exact ⟨And.right, fun hn => ⟨mem_allSources x, hn⟩⟩

theorem namedSources_nodup : (namedSources stored new).Nodup := allSources_nodup.filter _

theorem processEntries_only (s : State) :
    Only [.lines, .starts, .link, .attn, .sources] s (processEntries stored new s) :=
  foldSources_only (processSource_only stored new) _ s

/-- The record of a source depends on its own processing alone. -/
theorem processEntries_at (hx : named stored new x) (s : State) :
    ∃ u, Only [.lines, .starts, .link, .attn, .sources] s u ∧ u.source x = s.source x ∧
      (processEntries stored new s).source x = (processSource stored new x u).source x :=
  foldSources_at (processSource_others stored new) (processSource_only stored new) namedSources_nodup
    (mem_namedSources.mpr hx) s

theorem adopts_congr {s t : State} (h : t.source x = s.source x) : adopts t new x = adopts s new x := by
  simp only [adopts, h]

theorem processEntries_unnamed (hx : ¬ named stored new x) (s : State) :
    (processEntries stored new s).source x = s.source x :=
  foldSources_others (processSource_others stored new) _ s (mt mem_namedSources.mp hx)

/-- The record of a source without a newer entry, named or not (R92 steps 2 and 3). -/
theorem processEntries_source {s : State} (h : adopts s new x = false) :
    (processEntries stored new s).source x =
      ((s.source x).carrying (listed stored x) (listed new x)).matching (listed new x) := by
  by_cases hx : named stored new x
  · obtain ⟨u, -, hsource, hend⟩ := processEntries_at hx s
    rw [hend, processSource_source stored new x u ((adopts_congr hsource).trans h), hsource]
  · obtain ⟨hs, hn⟩ := not_or.mp hx
    rw [processEntries_unnamed hx, not_not.mp hs, not_not.mp hn]
    rfl

/-- The record of a source that is adopted (R90). -/
theorem processEntries_adopted {s : State} {e : LinkEntry} (he : listed new x = some e)
    (ho : genOrder e.gen (s.source x).gen = .newer) :
    let t := processEntries stored new s
    t.source x = { gen := e.gen, full := e.full.toNat, own := 0, carry := 0, empty := e.empty,
                   low := (t.source x).low } ∧
    ((t.source x).low = true ↔ e.full.toNat ≠ 0 ∧
      e.full.toNat - (s.setSource x { s.source x with gen := e.gen }).peerDraw x ≤
        s.cfg.lowThreshold[x]) := by
  obtain ⟨u, hu, hsource, hend⟩ := processEntries_at (stored := stored) (.inr (he ▸ Option.some_ne_none e)) s
  have hdraw : (u.setSource x { s.source x with gen := e.gen }).peerDraw x =
      (s.setSource x { s.source x with gen := e.gen }).peerDraw x :=
    peerDraw_congr (hu .peers (by simp)) (by rw [source_setSource_same, source_setSource_same])
  have hcfg : u.cfg = s.cfg := by
    simp only [State.cfg, show u.config = s.config from hu .config (by simp)]
  have h := processSource_adopted stored new x u he (hsource ▸ ho)
  simp only [hsource, hdraw, hcfg] at h
  simp only [hend]
  exact h

/-! ## The low tests that end the processing -/

theorem lowTest_others (x : SourceNo) (s : State) : OtherSources x s (lowTest x s) := by
  obtain ⟨-, -, hother, -⟩ := lowTest_spec x s
  exact hother

theorem lowTests_only (s : State) : Only [.sources, .attn] s (lowTests stored new s) :=
  foldSources_only lowTest_only _ s

theorem lowTests_unnamed (hx : ¬ named stored new x) (s : State) :
    (lowTests stored new s).source x = s.source x :=
  foldSources_others lowTest_others _ s (mt mem_namedSources.mp hx)

/-- A low test moves LOW alone (R84). -/
theorem lowTests_source (s : State) : (lowTests stored new s).source x =
    { s.source x with low := ((lowTests stored new s).source x).low } := by
  by_cases hx : named stored new x
  · obtain ⟨u, -, hsource, hend⟩ := foldSources_at lowTest_others lowTest_only
      (namedSources_nodup (stored := stored) (new := new)) (mem_namedSources.mpr hx) s
    obtain ⟨hlow, -⟩ := lowTest_spec x u
    rw [show (lowTests stored new s).source x = (lowTest x u).source x from hend, hlow, hsource]
  · rw [lowTests_unnamed hx]

theorem lowTests_drawn (s : State) : (lowTests stored new s).drawn x = s.drawn x := by
  have h := lowTests_source (stored := stored) (new := new) (x := x) s
  exact drawn_congr (lowTests_only s .peers (by simp)) (by rw [h]) (by rw [h]) (by rw [h])

theorem lowTests_low (hx : named stored new x) (s : State) :
    ((lowTests stored new s).source x).low = true ↔ (s.source x).low = true ∨
      ((s.source x).full ≠ 0 ∧
        (s.source x).full - (lowTests stored new s).drawn x ≤ s.cfg.lowThreshold[x]) := by
  obtain ⟨u, hu, hsource, hend⟩ := foldSources_at lowTest_others lowTest_only
    (namedSources_nodup (stored := stored) (new := new)) (mem_namedSources.mpr hx) s
  obtain ⟨-, hlow, -⟩ := lowTest_spec x u
  have hdrawn : u.drawn x = s.drawn x :=
    drawn_congr (hu .peers (by simp)) (by rw [hsource]) (by rw [hsource]) (by rw [hsource])
  have hcfg : u.cfg = s.cfg := by
    simp only [State.cfg, show u.config = s.config from hu .config (by simp)]
  rw [show (lowTests stored new s).source x = (lowTest x u).source x from hend, lowTests_drawn, hlow,
    hsource, hdrawn, hcfg]

end sources

end Sys2Proof.Machine

/-! SUPPORT. What a peer's entries make of the list, the lines, the attention set and the link (R25, R84, R86,
R90, R94), and the statement about them. -/

namespace Sys2Proof.Machine

/-! ## A line whose source is adopted, and one whose source is set EMPTY -/

/-- A line whose foam lock is lifted, and whose entry has then left the list with refusal (R25, R86). -/
def sweptLine (now : Nat) (lift refuse : Bool) (l : Line) : Line :=
  let lifted := if lift then liftedLine l else l
  if refuse then { lifted with state := .ready, flashFrom := some now } else lifted

/-- Lines alike but for their lamps become lines alike but for their lamps. -/
theorem sweptLine_congr {l l' : Line} (h : l'.sansLamp = l.sansLamp) (now : Nat) (lift refuse : Bool) :
    (sweptLine now lift refuse l').sansLamp = (sweptLine now lift refuse l).sansLamp := by
  have hsans : ∀ m : Line, (sweptLine now lift refuse m).sansLamp =
      (sweptLine now lift refuse m.sansLamp).sansLamp := by
    intro m; cases lift <;> cases refuse <;> rfl
  rw [hsans l', h, ← hsans]

/-- Lifted before it is refused, and each once. -/
theorem sweptLine_sweptLine {now : Nat} {lift refuse lift' refuse' : Bool} {l : Line}
    (hl : lift' = true → lift = false ∧ refuse = false) (hr : refuse' = true → refuse = false) :
    sweptLine now lift' refuse' (sweptLine now lift refuse l) =
      sweptLine now (lift || lift') (refuse || refuse') l := by
  cases lift' with
  | true =>
    obtain ⟨rfl, rfl⟩ := hl rfl
    rfl
  | false =>
    cases refuse' with
    | true =>
      obtain rfl := hr rfl
      simp [sweptLine]
    | false => simp [sweptLine]

/-! ## What the processing of entries sweeps along -/

/-- From one state to another, the sources of a first set have been set EMPTY with the effects of R86, those
of a second have been adopted (R25, R90), and LOW has been set by low tests alone (R84). -/
structure Swept (emptied adopted : SourceNo → Bool) (s t : State) : Prop where
  starts : t.starts = s.starts.filter fun e => !emptied (s.lineCfg e.line).source
  lines : ∀ i, (t.line i).sansLamp =
    (sweptLine s.now (s.configured i && adopted (s.lineCfg i).source)
      (emptied (s.lineCfg i).source && s.starts.any fun e => e.line == i) (s.line i)).sansLamp
  attn : t.attn = { s.attn with
    sourceEmpty := s.attn.sourceEmpty || allSources.any emptied,
    sourceLow := s.attn.sourceLow || allSources.any fun x => (t.source x).low &&
      (!(s.source x).low || adopted x) }
  link : if allSources.any emptied then StatusRequested s t else t.link = s.link
  low : ∀ x, adopted x = false → (s.source x).low = true → (t.source x).low = true
  only : Only [.lines, .starts, .link, .attn, .sources, .peers] s t

section swept

variable {E A E' A' : SourceNo → Bool} {s t u : State}

theorem anySource_iff (p : SourceNo → Bool) : allSources.any p = true ↔ ∃ x, p x = true := by
  simp [mem_allSources]

theorem anySource_false : (allSources.any fun _ => false) = false := rfl

/-- A set that holds no source but one. -/
theorem anySource_eq (p : SourceNo → Bool) (x : SourceNo) :
    (allSources.any fun y => y == x && p y) = p x := by
  rw [Bool.eq_iff_iff, anySource_iff]
  simp

theorem anySource_or (p q : SourceNo → Bool) :
    (allSources.any fun x => p x || q x) = (allSources.any p || allSources.any q) := by
  rw [Bool.eq_iff_iff, Bool.or_eq_true, anySource_iff, anySource_iff, anySource_iff, ← exists_or]
  simp only [Bool.or_eq_true]

/-- LOW newly set by the first of two sweeps or by the second: newly set by both together. -/
theorem newlyLow_trans {s t u a a' : Bool} (hs : a = false → s = true → t = true)
    (ht : a' = false → t = true → u = true) (ha : a' = true → a = false ∧ t = s) :
    ((t && (!s || a)) || (u && (!t || a'))) = (u && (!s || (a || a'))) := by
  revert s t u a a'
  decide

/-- No source has been set EMPTY or adopted, and what the sweep speaks of stands. -/
theorem Swept.of_only {ps : List Part} (h : Only ps s t)
    (hps : .lines ∉ ps ∧ .starts ∉ ps ∧ .attn ∉ ps ∧ .link ∉ ps)
    (hsub : ∀ p ∈ ps, p ∈ [Part.lines, .starts, .link, .attn, .sources, .peers])
    (hlow : ∀ x, (t.source x).low = (s.source x).low) :
    Swept (fun _ => false) (fun _ => false) s t := by
  obtain ⟨hlines, hstarts, hattn, hlink⟩ := hps
  refine ⟨?_, fun i => ?_, ?_, ?_, fun x _ hx => (hlow x).trans hx, h.mono hsub⟩
  · simpa using show t.starts = s.starts from h .starts hstarts
  · simp [line_congr (h .lines hlines) i, sweptLine]
  · rw [show t.attn = s.attn from h .attn hattn]
    simp [hlow, anySource_false]
  · simpa using show t.link = s.link from h .link hlink

theorem Swept.refl (s : State) : Swept (fun _ => false) (fun _ => false) s s :=
  .of_only (ps := []) (Only.refl [] s) (by simp) (by simp) fun _ => rfl

theorem Swept.congr (h : Swept E A s t) (hE : ∀ x, E' x = E x) (hA : ∀ x, A' x = A x) :
    Swept E' A' s t := by
  obtain rfl : E' = E := funext hE
  obtain rfl : A' = A := funext hA
  exact h

/-- One sweep after another, each source being set EMPTY once and adopted before that. -/
theorem Swept.trans (h : Swept E A s t) (h' : Swept E' A' t u) (hE : ∀ x, E' x = true → E x = false)
    (hA : ∀ x, A' x = true → E x = false ∧ A x = false ∧ (t.source x).low = (s.source x).low) :
    Swept (fun x => E x || E' x) (fun x => A x || A' x) s u := by
  have hcfg : t.config = s.config := h.only .config (by simp)
  have hnow : t.now = s.now := h.only .now (by simp)
  refine ⟨?_, fun i => ?_, ?_, ?_, fun x hx hl => ?_, h.only.trans h'.only⟩
  · rw [h'.starts, h.starts, List.filter_filter]
    refine List.filter_congr fun e _ => ?_
    rw [lineCfg_congr hcfg, Bool.not_or, Bool.and_comm]
  · obtain ⟨x, hx⟩ : ∃ x, x = (s.lineCfg i).source := ⟨_, rfl⟩
    have hany : (E' x && t.starts.any fun e => e.line == i) =
        (E' x && s.starts.any fun e => e.line == i) := by
      cases he : E' x with
      | false => rfl
      | true =>
        rw [h.starts, List.any_filter]
        congr 2
        funext e
        by_cases hi : e.line = i
        · simp [hi, ← hx, hE x he]
        · simp [hi]
    have hl := h'.lines i
    rw [lineCfg_congr hcfg, configured_congr hcfg, hnow, ← hx, hany] at hl
    rw [hl, sweptLine_congr (h.lines i), ← hx, sweptLine_sweptLine]
    · rw [← Bool.and_or_distrib_left, ← Bool.and_or_distrib_right]
    · intro hlift
      obtain ⟨he, ha, -⟩ := hA x (Bool.and_eq_true_iff.mp hlift).2
      simp [he, ha]
    · intro hrefuse
      simp [hE x (Bool.and_eq_true_iff.mp hrefuse).1]
  · rw [h'.attn, h.attn]
    have hlow : ((allSources.any fun x => (t.source x).low && (!(s.source x).low || A x)) ||
        allSources.any fun x => (u.source x).low && (!(t.source x).low || A' x)) =
        allSources.any fun x => (u.source x).low && (!(s.source x).low || (A x || A' x)) := by
      rw [← anySource_or]
      congr 1
      funext x
      exact newlyLow_trans (h.low x) (h'.low x) fun ha => (hA x ha).2
    simp only [Bool.or_assoc, anySource_or, hlow]
  · have hs := h.link
    have ht := h'.link
    rw [anySource_or]
    cases he : allSources.any E with
    | true =>
      rw [he, if_pos rfl] at hs
      cases he' : allSources.any E' with
      | true =>
        rw [he', if_pos rfl] at ht
        exact hs.trans ht
      | false =>
        rw [he', if_neg Bool.false_ne_true] at ht
        exact ht.trans hs
    | false =>
      rw [he, if_neg Bool.false_ne_true] at hs
      rw [Bool.false_or]
      split at ht
      next he' => rw [he', if_pos rfl]; exact ht.of_link hs
      next he' => rw [if_neg he']; exact ht.trans hs
  · obtain ⟨ha, ha'⟩ := Bool.or_eq_false_iff.mp hx
    exact h'.low x ha' (h.low x ha hl)

/-- A record written whose LOW stands. -/
theorem swept_setSource (x : SourceNo) {r : SourceRec} (h : r.low = (s.source x).low) :
    Swept (fun _ => false) (fun _ => false) s (s.setSource x r) := by
  refine .of_only (setSource_only s x r) (by simp) (by simp) fun y => ?_
  by_cases hy : y = x
  · rw [hy, source_setSource_same, h]
  · rw [source_setSource_ne s r hy]

/-- LOW is all that a low test sets, and SOURCE-LOW with it (R84). -/
theorem swept_lowTest (x : SourceNo) (s : State) :
    Swept (fun _ => false) (fun _ => false) s (lowTest x s) := by
  have honly := lowTest_only x s
  obtain ⟨-, hlow, hother, hattn⟩ := lowTest_spec x s
  have hnew : (allSources.any fun y => ((lowTest x s).source y).low && (!(s.source y).low || false)) =
      (((lowTest x s).source x).low && !(s.source x).low) := by
    rw [← anySource_eq (fun y => ((lowTest x s).source y).low && !(s.source y).low) x]
    congr 1
    funext y
    by_cases hy : y = x
    · simp [hy]
    · simp [hother y hy]
  refine ⟨?_, fun i => ?_, ?_, ?_, fun y _ hy => ?_, honly.mono (by simp)⟩
  · simpa using show (lowTest x s).starts = s.starts from honly .starts (by simp)
  · simp [line_congr (honly .lines (by simp)) i, sweptLine]
  · rw [hnew, hattn, set_sourceLow_if]
    simp [anySource_false]
  · simpa using show (lowTest x s).link = s.link from honly .link (by simp)
  · by_cases h : y = x
    · subst h; exact hlow.mpr (.inl hy)
    · rwa [hother y h]

/-- A new generation lifts the foam locks of its lines, and LOW is its low test's (R25, R84). -/
theorem swept_newGeneration (x : SourceNo) (gen : BitVec 8) (full : Nat) (empty : Bool) (s : State) :
    Swept (fun _ => false) (fun y => y == x) s (newGeneration x gen full empty s) := by
  have honly := newGeneration_only x gen full empty s
  obtain ⟨-, -, hother, hattn, hlines⟩ := newGeneration_spec x gen full empty s
  obtain ⟨t, ht⟩ : ∃ t, t = newGeneration x gen full empty s := ⟨_, rfl⟩
  rw [← ht] at honly hother hattn hlines ⊢
  have hnew : (allSources.any fun y => (t.source y).low && (!(s.source y).low || y == x)) =
      (t.source x).low := by
    rw [← anySource_eq (fun y => (t.source y).low) x]
    congr 1
    funext y
    by_cases hy : y = x
    · simp [hy]
    · simp [hother y hy, beq_eq_false_iff_ne.mpr hy]
  refine ⟨?_, fun i => ?_, ?_, ?_, fun y hy hlow => ?_, honly.mono (by simp)⟩
  · simpa using show t.starts = s.starts from honly .starts (by simp)
  · rw [hlines, sweptLine, Bool.false_and, if_neg Bool.false_ne_true]
  · rw [hnew, hattn, set_sourceLow_if]
    simp [anySource_false]
  · simpa using show t.link = s.link from honly .link (by simp)
  · rwa [hother y (by simpa using hy)]

/-- Entries refused, each line once or more often, its lamp left out of account (R12). -/
theorem overLines_refuseEntry_line (st : LineState) (is : List LineNo) (s : State) (i : LineNo) :
    ((overLines (fun i => refuseEntry i st) is s).line i).sansLamp =
      (if i ∈ is then { s.line i with state := st, flashFrom := some s.now } else s.line i : Line).sansLamp := by
  induction is generalizing s with
  | nil => simp
  | cons k rest ih =>
    obtain ⟨⟨hline, -⟩, hother, -, honly⟩ := refuseEntry_spec k st s
    have hnow : (refuseEntry k st s).now = s.now := honly .now (by simp)
    rw [overLines_cons, ih, hnow]
    by_cases hk : i = k
    · subst hk
      rw [if_pos List.mem_cons_self]
      split
      · calc ({ (refuseEntry i st s).line i with state := st, flashFrom := some s.now } : Line).sansLamp
          _ = { ((refuseEntry i st s).line i).sansLamp with state := st, flashFrom := some s.now } := rfl
          _ = _ := by rw [hline]; rfl
      · exact hline
    · rw [hother i hk]
      simp [hk]

/-- Setting EMPTY sweeps the entries of the source's lines off the list (R86). -/
theorem swept_emptyEffects (x : SourceNo) {s : State} (hs : s.station ≠ .unconfigured) :
    Swept (fun y => y == x) (fun _ => false) s (emptyEffects x s) := by
  obtain ⟨u, hu⟩ : ∃ u, u = requestStatus (raise .sourceEmpty s) := ⟨_, rfl⟩
  obtain ⟨v, hv⟩ : ∃ v, v = refuseSource x u := ⟨_, rfl⟩
  have e : emptyEffects x s = overLines relamp (v.linesOn x) v := by rw [hv, hu]; rfl
  obtain ⟨hreq, hru⟩ := requestStatus_spec (raise .sourceEmpty s) hs
  rw [← hu] at hreq hru
  have hsu : Only [.attn, .link] s u := ((raise_only _ s).mono (by simp)).trans (hru.mono (by simp))
  have huv : Only [.lines, .starts] u v := hv ▸ overLines_only
    (fun i s => (refuseEntry_spec i .ready s).2.2.2) _ u
  have hvt : Only [.lines] v (emptyEffects x s) := e ▸ overLines_only relamp_only _ v
  have hcfg : u.config = s.config := hsu .config (by simp)
  have hany : (allSources.any fun y => y == x) = true := (anySource_iff _).mpr ⟨x, beq_self_eq_true x⟩
  have hsource : ∀ y, (emptyEffects x s).source y = s.source y := fun y =>
    source_congr (emptyEffects_only x s .sources (by simp)) y
  refine ⟨?_, fun i => ?_, ?_, ?_, fun y _ hy => (hsource y).symm ▸ hy,
    (emptyEffects_only x s).mono (by simp)⟩
  · rw [show (emptyEffects x s).starts = v.starts from hvt .starts (by simp), hv, refuseSource_starts,
      show u.starts = s.starts from hsu .starts (by simp)]
    exact List.filter_congr fun e _ => by rw [lineCfg_congr hcfg]; rfl
  · rw [e, (overLines_relamp_keeps _ i v).1, hv, refuseSource, overLines_refuseEntry_line,
      show u.starts = s.starts from hsu .starts (by simp), show u.now = s.now from hsu .now (by simp),
      line_congr (hsu .lines (by simp))]
    have hmem : i ∈ ((s.starts.map StartEntry.line).filter fun i => (u.lineCfg i).source == x) ↔
        ((s.lineCfg i).source == x && s.starts.any fun e => e.line == i) = true := by
      rw [List.mem_filter, lineCfg_congr hcfg, List.mem_map, Bool.and_eq_true, List.any_eq_true, and_comm]
      simp only [beq_iff_eq]
    simp only [hmem, sweptLine, Bool.and_false, Bool.false_eq_true, if_false]
  · have hattn : (emptyEffects x s).attn = s.attn.set .sourceEmpty :=
      ((hvt .attn (by simp)).trans (huv .attn (by simp))).trans (hru .attn (by simp))
    rw [hattn, hany]
    simp [Attention.set, hsource, anySource_false]
  · rw [if_pos hany]
    exact (hreq.of_link rfl).of_only (huv.trans (hvt.mono (by simp))) (by simp)

/-- EMPTY set where it was clear (R85, R86). -/
theorem swept_setEmpty (x : SourceNo) (hs : s.station ≠ .unconfigured) :
    Swept (fun y => y == x && !(s.source x).empty) (fun _ => false) s (setEmpty x s) := by
  cases he : (s.source x).empty with
  | true =>
    rw [setEmpty_empty he]
    exact (Swept.refl s).congr (by simp) (by simp)
  | false =>
    have hset := swept_setSource (s := s) x (r := { s.source x with empty := true }) rfl
    have heffects := swept_emptyEffects x (s := s.setSource x { s.source x with empty := true }) hs
    rw [setEmpty, he, if_neg Bool.false_ne_true]
    exact (hset.trans heffects (by simp) (by simp)).congr (by simp) (by simp)

/-- An adoption, with the effects of EMPTY where the flag is set (R90). -/
theorem swept_adopt (x : SourceNo) (gen : BitVec 8) (full : Nat) (empty : Bool)
    (hs : s.station ≠ .unconfigured) :
    Swept (fun y => y == x && empty) (fun y => y == x) s (adopt x gen full empty s) := by
  have hnew := swept_newGeneration x gen full empty s
  have hstation : (newGeneration x gen full empty s).station = s.station :=
    hnew.only .station (by simp)
  cases empty with
  | true =>
    have heffects := swept_emptyEffects x (s := newGeneration x gen full true s) (hstation ▸ hs)
    rw [adopt, if_pos rfl]
    exact (hnew.trans heffects (by simp) (by simp)).congr (by simp) (by simp)
  | false =>
    rw [adopt, if_neg Bool.false_ne_true]
    exact hnew.congr (by simp) (by simp)

/-- The entry of the view's generation sets EMPTY where it was clear (R94). -/
theorem swept_equalStep (x : SourceNo) (e : LinkEntry) (hs : s.station ≠ .unconfigured) :
    Swept (fun y => y == x && (e.empty && (e.gen == (s.source x).gen && !(s.source x).empty)))
      (fun _ => false) s (equalStep x (some e) s) := by
  by_cases hg : e.gen = (s.source x).gen
  · obtain ⟨v, hv⟩ : ∃ v, v = if (s.source x).full = 0 then
        s.setSource x { s.source x with full := e.full.toNat } else s := ⟨_, rfl⟩
    have hsv : Swept (fun _ => false) (fun _ => false) s v := by
      rw [hv]
      split
      · exact swept_setSource x rfl
      · exact .refl s
    have hempty : (v.source x).empty = (s.source x).empty := by
      rw [hv]
      split
      · rw [source_setSource_same]
      · rfl
    have hstep : equalStep x (some e) s = if e.empty then setEmpty x v else v := by
      simp only [equalStep, hg, if_true, hv]
    have hstation : v.station = s.station := hsv.only .station (by simp)
    rw [hstep]
    cases he : e.empty with
    | true =>
      rw [if_pos rfl]
      exact (hsv.trans (swept_setEmpty x (hstation ▸ hs)) (by simp) (by simp)).congr
        (by simp [hempty, hg]) (by simp)
    | false =>
      rw [if_neg Bool.false_ne_true]
      exact hsv.congr (by simp) (by simp)
  · have hstep : equalStep x (some e) s = s := by simp only [equalStep, hg, if_false]
    rw [hstep]
    exact (Swept.refl s).congr (by simp [hg]) (by simp)

/-- A source that is set EMPTY is named by the new list, and one that is adopted too. -/
theorem empties_eq {new : List LinkEntry} {x : SourceNo} {e : LinkEntry} (he : listed new x = some e) :
    empties s new x = (e.empty && (adopts s new x || (e.gen == (s.source x).gen && !(s.source x).empty))) := by
  simp only [empties, he]

theorem empties_none {new : List LinkEntry} {x : SourceNo} (he : listed new x = none) :
    empties s new x = false ∧ adopts s new x = false := by
  simp only [empties, adopts, he, and_self]

theorem empties_congr {new : List LinkEntry} {x : SourceNo} (h : t.source x = s.source x) :
    empties t new x = empties s new x := by
  simp only [empties, adopts, h]

/-- One source processed (R92). -/
theorem swept_processSource (stored new : List LinkEntry) (x : SourceNo) (hs : s.station ≠ .unconfigured) :
    Swept (fun y => y == x && empties s new x) (fun y => y == x && adopts s new x) s
      (processSource stored new x s) := by
  cases ha : adopts s new x with
  | true =>
    obtain ⟨e, he, ho⟩ := adopts_iff.mp ha
    rw [processSource_adopts stored new x s he ho, empties_eq he, ha]
    exact (swept_adopt x e.gen e.full.toNat e.empty hs).congr (by simp) (by simp)
  | false =>
    rw [processSource_stays stored new x s ha, carryStep_eq]
    have hcarrying : ∀ o n, ((s.source x).carrying o n).low = (s.source x).low ∧
        ((s.source x).carrying o n).gen = (s.source x).gen ∧
        ((s.source x).carrying o n).empty = (s.source x).empty := by
      intro o n
      unfold SourceRec.carrying
      split
      · split <;> exact ⟨rfl, rfl, rfl⟩
      · exact ⟨rfl, rfl, rfl⟩
    obtain ⟨hlow, hgen, hempty⟩ := hcarrying (listed stored x) (listed new x)
    have hcarry := swept_setSource x hlow
    cases hn : listed new x with
    | none =>
      rw [(empties_none hn).1]
      rw [hn] at hcarry
      exact hcarry.congr (by simp) (by simp)
    | some e =>
      rw [hn] at hcarry hgen hempty
      have hstep := swept_equalStep x e
        (s := s.setSource x ((s.source x).carrying (listed stored x) (some e))) hs
      rw [source_setSource_same, hgen, hempty] at hstep
      exact (hcarry.trans hstep (by simp) (by simp)).congr (by simp [empties_eq hn, ha]) (by simp)

/-- A set of the sources of a list, from its first and its rest. -/
theorem mem_cons_and {x y : SourceNo} {rest : List SourceNo} {p q : SourceNo → Bool}
    (hpq : y ∈ rest → p y = q y) : (decide (y ∈ x :: rest) && q y) =
      (y == x && q x || decide (y ∈ rest) && p y) := by
  by_cases hy : y = x
  · subst hy
    simpa using fun hr => by simp [hpq hr]
  · by_cases hr : y ∈ rest
    · simp [hy, hr, hpq hr]
    · simp [hy, hr]

/-- Several sources processed, each once. -/
theorem swept_foldl (stored new : List LinkEntry) {xs : List SourceNo} (hn : xs.Nodup)
    (hs : s.station ≠ .unconfigured) :
    Swept (fun y => decide (y ∈ xs) && empties s new y) (fun y => decide (y ∈ xs) && adopts s new y) s
      (xs.foldl (fun s x => processSource stored new x s) s) := by
  induction xs generalizing s with
  | nil => exact (Swept.refl s).congr (by simp) (by simp)
  | cons x rest ih =>
    obtain ⟨hx, hrest⟩ := List.nodup_cons.mp hn
    have hfirst := swept_processSource stored new x hs
    have hstation : (processSource stored new x s).station = s.station :=
      hfirst.only .station (by simp)
    have hne : ∀ y, y ∈ rest → y ≠ x := fun y hy e => hx (e ▸ hy)
    have hother : ∀ y, y ∈ rest → (processSource stored new x s).source y = s.source y := fun y hy =>
      processSource_others stored new x s y (hne y hy)
    have hE : ∀ y, (decide (y ∈ rest) && empties (processSource stored new x s) new y) = true →
        (y == x && empties s new x) = false := fun y hy => by
      simp [hne y (by simpa using (Bool.and_eq_true_iff.mp hy).1)]
    have hA : ∀ y, (decide (y ∈ rest) && adopts (processSource stored new x s) new y) = true →
        (y == x && empties s new x) = false ∧ (y == x && adopts s new x) = false ∧
          ((processSource stored new x s).source y).low = (s.source y).low := fun y hy => by
      have hy : y ∈ rest := by simpa using (Bool.and_eq_true_iff.mp hy).1
      simp [hne y hy, hother y hy]
    exact (hfirst.trans (ih hrest (hstation ▸ hs)) hE hA).congr
      (fun y => mem_cons_and fun hy => empties_congr (hother y hy))
      (fun y => mem_cons_and fun hy => adopts_congr (hother y hy))

/-- Every source that either list names, processed (R92 steps 1 to 3). -/
theorem swept_processEntries (stored new : List LinkEntry) (hs : s.station ≠ .unconfigured) :
    Swept (empties s new) (adopts s new) s (processEntries stored new s) := by
  have hnamed : ∀ x, listed new x ≠ none → x ∈ namedSources stored new := fun x h =>
    mem_namedSources.mpr (.inr h)
  refine (swept_foldl stored new namedSources_nodup hs).congr (fun x => ?_) (fun x => ?_)
  all_goals
    by_cases h : listed new x = none
    · simp [empties_none h]
    · simp [hnamed x h]

/-- The low tests that end the processing (R92 step 4). -/
theorem swept_lowTests (stored new : List LinkEntry) (s : State) :
    Swept (fun _ => false) (fun _ => false) s (lowTests stored new s) := by
  unfold lowTests
  induction namedSources stored new generalizing s with
  | nil => exact .refl s
  | cons x rest ih =>
    exact ((swept_lowTest x s).trans (ih _) (by simp) (by simp)).congr (by simp) (by simp)

end swept

/-! ## A STATUS applied -/

/-- The entries that the Peer Table holds of a station (R123). -/
def heldEntries (s : State) (n : Fin 32) : List LinkEntry :=
  match s.peer n with
  | some p => p.body.entries
  | none => []

/-- A STATUS applied but for the claim evaluation (R125). -/
def statusTaken (n : Fin 32) (b : StatusBody) (s : State) : State :=
  lowTests (heldEntries s n) b.entries
    ((processEntries (heldEntries s n) b.entries s).setPeer n
      (some { fresh := true, lastAt := s.now, body := b }))

theorem applyStatus_eq (n : Fin 32) (b : StatusBody) (s : State) :
    applyStatus n b s = evaluateClaim (statusTaken n b s) := by
  rfl

theorem enterRunning_only (s : State) :
    Only [.lines, .starts, .pours, .journal, .link, .cool, .clean] s (enterRunning s) := by
  unfold enterRunning
  split
  · next j _ =>
    have hactive : Only [.lines, .clean] s (overLines activate (linesOf j.lines)
        (modClean (fun c => { c with runState := .running }) s)) :=
      ((modClean_only _ s).mono (by simp)).trans
        ((overLines_only (fun i s => (activate_frame i s).2) _ _).mono (by simp))
    exact (((hactive.mono (by simp)).trans ((requestStatus_only _).mono (by simp))).trans
      ((modClean_only _ _).mono (by simp))).trans ((enterStep_spec _ _ _).2.mono (by simp))
  · exact Only.refl _ s

theorem evaluateClaim_only (s : State) :
    Only [.lines, .starts, .pours, .journal, .link, .cool, .clean] s (evaluateClaim s) := by
  unfold evaluateClaim
  simp only
  split
  · split
    · exact ((modClean_only _ s).mono (by simp)).trans (enterRunning_only _)
    · exact (modClean_only _ s).mono (by simp)
  · exact Only.refl _ s

theorem swept_statusTaken (n : Fin 32) (b : StatusBody) {s : State} (hs : s.station ≠ .unconfigured) :
    Swept (empties s b.entries) (adopts s b.entries) s (statusTaken n b s) := by
  have hentries := swept_processEntries (heldEntries s n) b.entries hs
  have hpeer : ∀ u p, Swept (fun _ => false) (fun _ => false) u (u.setPeer n p) := fun u p =>
    .of_only (setPeer_only u n p) (by simp) (by simp) fun _ => rfl
  exact ((hentries.trans (hpeer _ _) (by simp) (by simp)).trans (swept_lowTests _ _ _)
    (by simp) (by simp)).congr (by simp) (by simp)

/-- A STATUS of a peer (R107). -/
theorem exec_status {station : Byte} {b : StatusBody} {n : Fin 32} {s : State} (hr : s.rstnLow = false)
    (hb : b.entries.length ≤ 8) (hst : station.toNat = n.val + 1) (hn : station.toNat ≠ s.cfg.station)
    (hl : s.link.rx.listening = true) : exec (.validFrameArrival ⟨station, .status b⟩) s =
      .next (evaluateClaim (statusTaken n b (hunting s))) := by
  have hwf : LinkFrame.wf ⟨station, .status b⟩ = true := by
    have hrange : stationInRange station = true := by simp [stationInRange]; omega
    simp [LinkFrame.wf, FrameBody.wf, hrange, hb]
  rw [exec_validFrameArrival hr hwf hl, handFrame,
    if_neg (show ¬ station.toNat = (hunting s).cfg.station from hn), ← applyStatus_eq]
  simp only [peerIndex_eq hst]

/-! ## The figures of a source -/

/-- The stored cumulative of the view's generation, on which the carry rule acts (R93). -/
def SourceRec.storedCum (r : SourceRec) (stored : Option LinkEntry) : Option Nat :=
  match stored with
  | some e => if e.gen = r.gen then some e.cum.toNat else none
  | none => none

/-- Carry once an amount of a stored cumulative has been added to it (R93). -/
def SourceRec.carryWith (r : SourceRec) (stored : Option LinkEntry) (n : Nat) : Nat :=
  if r.storedCum stored = none then r.carry else min (r.carry + n) 4294967295

/-- A stored cumulative that no new entry carries on is added (R93). -/
theorem SourceRec.carrying_lost {r : SourceRec} {stored new : Option LinkEntry}
    (h : ∀ e, new = some e → genOrder e.gen r.gen = .older) : r.carrying stored new =
      { r with carry := r.carryWith stored ((r.storedCum stored).getD 0) } := by
  cases stored with
  | none => rfl
  | some e =>
    have hc : carried r.gen e new = e.cum.toNat := by
      cases new with
      | none => rfl
      | some e' => simp only [carried, h e' rfl]
    by_cases hg : e.gen = r.gen <;>
      simp [SourceRec.carrying, SourceRec.carryWith, SourceRec.storedCum, hg, hc, sat, max32]

/-- A stored cumulative above the new one of the same generation is added (R93). -/
theorem SourceRec.carrying_equal {r : SourceRec} {stored : Option LinkEntry} {e : LinkEntry}
    (h : e.gen = r.gen) : r.carrying stored (some e) = { r with
      carry := r.carryWith stored (if e.cum.toNat < (r.storedCum stored).getD 0
        then (r.storedCum stored).getD 0 else 0) } := by
  cases stored with
  | none => rfl
  | some o =>
    have hc : carried r.gen o (some e) = if e.cum.toNat < o.cum.toNat then o.cum.toNat else 0 := by
      simp only [carried, genOrder_equal_iff.mpr h]
    by_cases hg : o.gen = r.gen <;>
      simp [SourceRec.carrying, SourceRec.carryWith, SourceRec.storedCum, hg, hc, sat, max32]

/-- The carry rule moves carry alone. -/
theorem SourceRec.carrying_keeps (r : SourceRec) (stored new : Option LinkEntry) :
    r.carrying stored new = { r with carry := (r.carrying stored new).carry } := by
  unfold SourceRec.carrying
  split
  · split <;> rfl
  · rfl

/-- An entry moves the full volume and EMPTY alone. -/
theorem SourceRec.matching_keeps (r : SourceRec) (new : Option LinkEntry) :
    r.matching new = { r with full := (r.matching new).full, empty := (r.matching new).empty } := by
  unfold SourceRec.matching
  split
  · split <;> rfl
  · rfl

theorem SourceRec.matching_other {r : SourceRec} {new : Option LinkEntry}
    (h : ∀ e, new = some e → e.gen ≠ r.gen) : r.matching new = r := by
  cases new with
  | none => rfl
  | some e => simp only [SourceRec.matching, h e rfl, if_false]

section figures

variable {n : Fin 32} {b : StatusBody} {s : State} {x : SourceNo}

theorem statusTaken_unnamed (h : ¬ named (heldEntries s n) b.entries x) :
    (statusTaken n b s).source x = s.source x := by
  rw [statusTaken, lowTests_unnamed h, setPeer_source, processEntries_unnamed h]

/-- The low tests that end the processing leave the other figures of a record. -/
theorem statusTaken_figures : (statusTaken n b s).source x =
    { (processEntries (heldEntries s n) b.entries s).source x with
      low := ((statusTaken n b s).source x).low } :=
  lowTests_source _

/-- The record of a source without a newer entry (R93, R94). -/
theorem statusTaken_source (h : adopts s b.entries x = false) : (statusTaken n b s).source x =
    { ((s.source x).carrying (listed (heldEntries s n) x) (listed b.entries x)).matching
        (listed b.entries x) with
      low := ((statusTaken n b s).source x).low } := by
  rw [← processEntries_source h]
  exact statusTaken_figures

/-- LOW of a source that either list names (R84). -/
theorem statusTaken_low (h : named (heldEntries s n) b.entries x) :
    ((statusTaken n b s).source x).low = true ↔
      ((processEntries (heldEntries s n) b.entries s).source x).low = true ∨
      (((statusTaken n b s).source x).full ≠ 0 ∧
        ((statusTaken n b s).source x).full - (statusTaken n b s).drawn x ≤ s.cfg.lowThreshold[x]) := by
  obtain ⟨v, hv⟩ : ∃ v, v = (processEntries (heldEntries s n) b.entries s).setPeer n
    (some { fresh := true, lastAt := s.now, body := b }) := ⟨_, rfl⟩
  have hcfg : v.cfg = s.cfg := by
    have hconfig : v.config = s.config := by
      rw [hv, setPeer_config]
      exact processEntries_only s .config (by simp)
    simp only [State.cfg, hconfig]
  have hlow := lowTests_low h v
  have htaken : statusTaken n b s = lowTests (heldEntries s n) b.entries v := by rw [hv]; rfl
  rw [hcfg, ← htaken] at hlow
  have hfull : ((statusTaken n b s).source x).full = (v.source x).full := by
    rw [htaken, lowTests_source]
  rw [hlow, hfull, hv, setPeer_source]

/-- LOW of a source without a newer entry stands until the low test (R84). -/
theorem statusTaken_lowKept (h : named (heldEntries s n) b.entries x) (ha : adopts s b.entries x = false) :
    ((statusTaken n b s).source x).low = true ↔ (s.source x).low = true ∨
      (((statusTaken n b s).source x).full ≠ 0 ∧
        ((statusTaken n b s).source x).full - (statusTaken n b s).drawn x ≤ s.cfg.lowThreshold[x]) := by
  rw [statusTaken_low h, processEntries_source ha, SourceRec.matching_keeps, SourceRec.carrying_keeps]

theorem not_adopts {new : List LinkEntry}
    (h : ∀ e, listed new x = some e → genOrder e.gen (s.source x).gen ≠ .newer) :
    adopts s new x = false := by
  rw [← Bool.not_eq_true, adopts_iff]
  rintro ⟨e, he, ho⟩
  exact h e he ho

/-- No new entry, or an older one: what is stored moves into carry (R93). -/
theorem statusTaken_lost
    (h : ∀ e, listed b.entries x = some e → genOrder e.gen (s.source x).gen = .older) :
    (statusTaken n b s).source x = { s.source x with
      carry := (s.source x).carryWith (listed (heldEntries s n) x)
        (((s.source x).storedCum (listed (heldEntries s n) x)).getD 0),
      low := ((statusTaken n b s).source x).low } := by
  have ha : adopts s b.entries x = false := not_adopts fun e he => by simp [h e he]
  have hfig := statusTaken_source (n := n) ha
  rw [SourceRec.carrying_lost h, SourceRec.matching_other] at hfig
  · exact hfig
  · intro e he hg
    exact absurd ((genOrder_equal_iff.mpr hg).symm.trans (h e he)) (by decide)

/-- A new entry of the view's generation (R93, R94). -/
theorem statusTaken_equal {e : LinkEntry} (he : listed b.entries x = some e)
    (hg : e.gen = (s.source x).gen) : (statusTaken n b s).source x = { s.source x with
      carry := (s.source x).carryWith (listed (heldEntries s n) x)
        (if e.cum.toNat < ((s.source x).storedCum (listed (heldEntries s n) x)).getD 0
          then ((s.source x).storedCum (listed (heldEntries s n) x)).getD 0 else 0),
      full := if (s.source x).full = 0 then e.full.toNat else (s.source x).full,
      empty := (s.source x).empty || e.empty,
      low := ((statusTaken n b s).source x).low } := by
  have ho : genOrder e.gen (s.source x).gen = .equal := genOrder_equal_iff.mpr hg
  have ha : adopts s b.entries x = false := not_adopts fun e' he' => by
    simp [← Option.some.inj (he.symm.trans he'), ho]
  have hfig := statusTaken_source (n := n) ha
  rw [he, SourceRec.carrying_equal hg] at hfig
  simpa only [SourceRec.matching, hg, if_true] using hfig

/-- A newer entry is adopted, and LOW is what the two low tests make of it (R84, R90). -/
theorem statusTaken_adopted {e : LinkEntry} (he : listed b.entries x = some e)
    (ho : genOrder e.gen (s.source x).gen = .newer) :
    (statusTaken n b s).source x =
      { gen := e.gen, full := e.full.toNat, own := 0, carry := 0, empty := e.empty,
        low := ((statusTaken n b s).source x).low } ∧
    (((statusTaken n b s).source x).low = true ↔ e.full.toNat ≠ 0 ∧
      (e.full.toNat - (statusTaken n b s).drawn x ≤ s.cfg.lowThreshold[x] ∨
        e.full.toNat - (s.setSource x { s.source x with gen := e.gen }).peerDraw x ≤
          s.cfg.lowThreshold[x])) := by
  obtain ⟨hfig, hlow⟩ := processEntries_adopted (stored := heldEntries s n) he ho
  have hfig' := statusTaken_figures (n := n) (b := b) (s := s) (x := x)
  rw [hfig] at hfig'
  refine ⟨hfig', ?_⟩
  rw [statusTaken_low (.inr (he ▸ Option.some_ne_none e)), hlow, hfig', ← and_or_left, or_comm]

end figures

theorem evaluateClaim_idle {s : State} (h : s.clean.runState ≠ .claiming) : evaluateClaim s = s := by
  rw [evaluateClaim, if_neg h]

/-- Settles O40: the figures source by source, and what the processing sweeps along. -/
theorem entriesApplied : Obligations.EntriesApplied := by
  intro station b n s hr hb hst hn hl hs
  obtain ⟨v, hv⟩ : ∃ v, v = hunting s := ⟨_, rfl⟩
  have hsv : Only [.link] s v := hv ▸ hunting_only s
  have hsource : ∀ x, v.source x = s.source x := source_congr (hsv .sources (by simp))
  have hcfg : v.cfg = s.cfg := by rw [hv]; rfl
  have hheld : heldEntries s n = heldEntries v n := by rw [hv]; rfl
  obtain ⟨u, hu⟩ : ∃ u, u = statusTaken n b v := ⟨_, rfl⟩
  have hswept : Swept (empties s b.entries) (adopts s b.entries) v u := by
    have h := swept_statusTaken n b (s := v) (by rwa [show v.station = s.station from hsv .station (by simp)])
    exact hu ▸ h.congr (fun x => (empties_congr (hsource x)).symm) fun x => (adopts_congr (hsource x)).symm
  have hconfig : v.config = s.config := hsv .config (by simp)
  have hstarts : v.starts = s.starts := hsv .starts (by simp)
  refine ⟨u, evaluateClaim u, ?_, evaluateClaim_only u .sources (by simp), fun hc => ?_,
    (hsv.mono (by simp)).trans (hswept.only.mono (by simp)), fun x => ?_, ?_, fun i => ?_, ?_, ?_⟩
  · rw [exec_status hr hb hst hn hl, hu, hv]
  · refine evaluateClaim_idle ?_
    rwa [show u.clean = s.clean from (hswept.only .clean (by simp)).trans (hsv .clean (by simp))]
  · intro r stored carry short lowKept
    have hr : v.source x = r := hsource x
    have hstored : stored = r.storedCum (listed (heldEntries v n) x) := by rw [← hheld]; rfl
    have hcarry : ∀ k, carry k = r.carryWith (listed (heldEntries v n) x) k := by
      rw [← hheld]; intro k; rfl
    have hlow : named (heldEntries v n) b.entries x → adopts v b.entries x = false → lowKept := by
      intro h ha
      have h := statusTaken_lowKept h ha
      rwa [hr, hcfg, ← hu] at h
    have hlost := statusTaken_lost (n := n) (b := b) (s := v) (x := x)
    rw [hr, ← hu, ← hstored, ← hcarry] at hlost
    cases he : listed b.entries x with
    | none =>
      refine ⟨hlost (by simp [he]), fun ho => ?_, fun ho => ?_⟩
      · rw [hu, statusTaken_unnamed, hr]
        exact not_or.mpr ⟨not_not.mpr (hheld ▸ ho), not_not.mpr he⟩
      · exact hlow (.inl (hheld ▸ ho)) (empties_none he).2
    | some e =>
      have hnamed : named (heldEntries v n) b.entries x := .inr (he ▸ Option.some_ne_none e)
      have hstays : genOrder e.gen r.gen ≠ .newer → adopts v b.entries x = false := fun h =>
        not_adopts fun e' he' => by rwa [← Option.some.inj (he.symm.trans he'), hr]
      refine ⟨fun h1 h2 => ?_, fun hd => ?_, fun hd => ?_⟩
      · have ho := genOrder_newer_iff.mpr ⟨h1, h2⟩
        have h := statusTaken_adopted (n := n) he (hr.symm ▸ ho)
        have hdraw : (v.setSource x { r with gen := e.gen }).peerDraw x =
            (s.setSource x { r with gen := e.gen }).peerDraw x :=
          peerDraw_congr (hsv .peers (by simp)) (by rw [source_setSource_same, source_setSource_same])
        rwa [hr, hdraw, hcfg, ← hu] at h
      · have ho := genOrder_older_iff.mpr hd
        exact ⟨hlost fun e' he' => by rwa [← Option.some.inj (he.symm.trans he')],
          hlow hnamed (hstays (by simp [ho]))⟩
      · have hg := distance_eq_zero.mp hd
        have h := statusTaken_equal (n := n) he (hr.symm ▸ hg)
        rw [hr, ← hu, ← hstored, ← hcarry] at h
        exact ⟨hlow hnamed (hstays (by simp [genOrder_equal_iff.mpr hg])), h⟩
  · rw [hswept.starts, hstarts]
    simp only [lineCfg_congr hconfig]
  · rw [hswept.lines, hstarts, lineCfg_congr hconfig, configured_congr hconfig,
      line_congr (hsv .lines (by simp)), show v.now = s.now from hsv .now (by simp)]
    rfl
  · rw [hswept.attn, show v.attn = s.attn from hsv .attn (by simp)]
    simp only [hsource]
  · rw [hv] at hswept
    exact hswept.link

end Sys2Proof.Machine

/-! SUPPORT. What every operation of the block leaves of the volumes drawn (R82, R83): generations stand, and
what is drawn does not fall. -/

namespace Sys2Proof.Machine

/-! ## Drawn under an operation -/

/-- No source takes a generation, and the reading of drawn falls for none (R83). -/
structure Draws (s t : State) : Prop where
  gen : ∀ x, (t.source x).gen = (s.source x).gen
  drawn : ∀ x, min (s.drawn x) 4294967295 ≤ min (t.drawn x) 4294967295

/-- The reading of drawn falls for no source whose generation stands (R83). -/
def DrawnHolds (s t : State) : Prop :=
  ∀ x, (t.source x).gen = (s.source x).gen →
    min (s.drawn x) 4294967295 ≤ min (t.drawn x) 4294967295

section draws

variable {s t u : State} {x : SourceNo} {ps : List Part}

theorem Draws.refl (s : State) : Draws s s := ⟨fun _ => rfl, fun _ => le_refl _⟩

theorem Draws.trans (h : Draws s t) (h' : Draws t u) : Draws s u :=
  ⟨fun x => (h'.gen x).trans (h.gen x), fun x => (h.drawn x).trans (h'.drawn x)⟩

/-- The same, from the last operation backwards. -/
theorem Draws.after (h' : Draws t u) (h : Draws s t) : Draws s u := h.trans h'

theorem Draws.holds (h : Draws s t) : DrawnHolds s t := fun x _ => h.drawn x

theorem DrawnHolds.after (h' : DrawnHolds t u) (h : Draws s t) : DrawnHolds s u := fun x hx =>
  (h.drawn x).trans (h' x (hx.trans (h.gen x).symm))

theorem DrawnHolds.trans (h : DrawnHolds s t) (h' : Draws t u) : DrawnHolds s u := fun x hx =>
  (h x ((h'.gen x).symm.trans hx)).trans (h'.drawn x)

/-- Own cumulatives grow, and the other figures of drawn stand (R82). -/
theorem Draws.of_figures (hp : t.peers = s.peers) (hg : ∀ x, (t.source x).gen = (s.source x).gen)
    (hc : ∀ x, (t.source x).carry = (s.source x).carry)
    (ho : ∀ x, min (s.source x).own 4294967295 ≤ (t.source x).own) : Draws s t := by
  refine ⟨hg, fun x => ?_⟩
  have hown := ho x
  rw [State.drawn, State.drawn, peerDraw_congr hp (hg x), hc]
  omega

/-- Drawn reads the sources and the peer records. -/
theorem Draws.of_eq (hs : t.sources = s.sources) (hp : t.peers = s.peers) : Draws s t :=
  .of_figures hp (fun x => by rw [source_congr hs]) (fun x => by rw [source_congr hs])
    (fun x => by rw [source_congr hs]; exact Nat.min_le_left _ _)

theorem Draws.of_only (h : Only ps s t) (hps : .sources ∉ ps ∧ .peers ∉ ps) : Draws s t :=
  .of_eq (h .sources hps.1) (h .peers hps.2)

/-- An operation on one record keeps its generation and its figures of drawn, or raises own cumulative. -/
theorem Draws.of_source (h : Only ps s t) (hps : .peers ∉ ps) (hother : OtherSources x s t)
    (hg : (t.source x).gen = (s.source x).gen) (hc : (t.source x).carry = (s.source x).carry)
    (ho : min (s.source x).own 4294967295 ≤ (t.source x).own) : Draws s t := by
  have hy : ∀ y, y = x ∨ t.source y = s.source y := fun y => or_iff_not_imp_left.mpr (hother y)
  refine .of_figures (h .peers hps) (fun y => ?_) (fun y => ?_) (fun y => ?_)
  · rcases hy y with rfl | hy
    · exact hg
    · rw [hy]
  · rcases hy y with rfl | hy
    · exact hc
    · rw [hy]
  · rcases hy y with rfl | hy
    · exact ho
    · rw [hy]
      exact Nat.min_le_left _ _

/-- The volumes of records are added to own cumulatives (R82). -/
theorem Draws.of_drew {rs : List Record} (h : Drew rs s t) (hp : t.peers = s.peers) : Draws s t := by
  have hx : ∀ x, t.source x = { s.source x with
      own := if wasteVolumes x rs = [] then (s.source x).own
        else min ((s.source x).own + (wasteVolumes x rs).sum) 4294967295,
      low := (t.source x).low } := fun x => (h x).1
  refine .of_figures hp (fun x => by rw [hx]) (fun x => by rw [hx]) (fun x => ?_)
  rw [hx]
  simp only
  split <;> omega

theorem draws_setLine (i : LineNo) (l : Line) : Draws s (s.setLine i l) := .of_eq rfl rfl

theorem draws_modLink (f : Link → Link) : Draws s (modLink f s) := .of_eq rfl rfl

theorem draws_modClean (f : Cleaning → Cleaning) : Draws s (modClean f s) := .of_eq rfl rfl

theorem draws_raise (f : AttnFlag) : Draws s (raise f s) := .of_eq rfl rfl

/-- An operation made in some states and not in others. -/
theorem Draws.ite {c : Prop} [Decidable c] (h : Draws s t) (h' : Draws s u) :
    Draws s (if c then t else u) := by
  split
  · exact h
  · exact h'

theorem draws_overLines {f : LineNo → State → State} (h : ∀ i s, Draws s (f i s)) (is : List LineNo)
    (s : State) : Draws s (overLines f is s) := by
  induction is generalizing s with
  | nil => exact .refl s
  | cons i rest ih => exact (h i s).trans (ih _)

end draws

/-! ## Shared operations -/

section ops

variable (i : LineNo) (s : State)

theorem draws_setState (st : LineState) : Draws s (setState i st s) :=
  .of_only (setState_spec i st s).2.2 (by simp)

theorem draws_refuseFlash : Draws s (refuseFlash i s) :=
  .of_only (refuseFlash_spec i s).2.2 (by simp)

theorem draws_refuseEntry (st : LineState) : Draws s (refuseEntry i st s) :=
  .of_only (refuseEntry_spec i st s).2.2.2 (by simp)

theorem draws_setLock (r : LockReason) : Draws s (setLock i r s) :=
  .of_only (setLock_spec i r s).2.2.2 (by simp)

theorem draws_clearLock : Draws s (clearLock i s) := .of_only (clearLock_spec i s).2.2 (by simp)

theorem draws_endPour (reason : EndReason) : Draws s (endPour i reason s) := by
  cases hp : (s.line i).pour with
  | none => simp only [endPour, hp]; exact .refl s
  | some p => exact .of_only (endPour_spec i reason s p hp).2.2 (by simp)

theorem draws_endIfPouring (reason : EndReason) : Draws s (endIfPouring i reason s) :=
  .of_only (endIfPouring_others i reason s).2 (by simp)

theorem draws_selectFrame : Draws s (selectFrame s) := .of_only (selectFrame_only s) (by simp)

theorem draws_requestStatus : Draws s (requestStatus s) := .of_only (requestStatus_only s) (by simp)

theorem draws_serve : Draws s (serve s) := .of_only (serve_only s) (by simp)

theorem draws_request (kind : StartKind) : Draws s (request i kind s) :=
  .of_only (request_only i kind s) (by simp)

theorem draws_setEmpty (x : SourceNo) : Draws s (setEmpty x s) :=
  .of_source (setEmpty_only x s) (by simp) (setEmpty_others x s) (by rw [setEmpty_source])
    (by rw [setEmpty_source]) (by rw [setEmpty_source]; exact Nat.min_le_left _ _)

theorem draws_lowTest (x : SourceNo) : Draws s (lowTest x s) := by
  obtain ⟨hsource, -, hother, -⟩ := lowTest_spec x s
  exact .of_source (lowTest_only x s) (by simp) hother (by rw [hsource]) (by rw [hsource])
    (by rw [hsource]; exact Nat.min_le_left _ _)

end ops

/-! ## Pours and pulses -/

section pours

variable (i : LineNo) (s : State)

theorem draws_pourPulse (p : PourCtx) : Draws s (pourPulse i p s) := by
  unfold pourPulse
  simp only
  split
  · split
    · exact .after (draws_setEmpty _ _) (.after (draws_endPour i _ _) (draws_setLine i _))
    · exact .after (draws_endPour i _ _) (draws_setLine i _)
    · exact draws_setLine i _
  · exact draws_setLine i _

theorem draws_creepPulse : Draws s (creepPulse i s) := by
  unfold creepPulse
  simp only
  split
  · split
    · exact .after (draws_setState i _ _) (.after (draws_setLock i _ _) (draws_setLine i _))
    · exact .after (draws_refuseEntry i _ _) (.after (draws_setLock i _ _) (draws_setLine i _))
    · exact draws_setLine i _
  · exact draws_setLine i _

/-- The volume of a completed pour is drawn (R22, R82). -/
theorem draws_complete (p : PourCtx) : Draws s (complete i p s) := by
  obtain ⟨-, -, hother, -, -, hsource, -, -, honly⟩ := bookPour_spec i p s
  have hbook : Draws s (bookPour i p s) := .of_source honly (by simp) hother (by rw [hsource])
    (by rw [hsource]) (by rw [hsource]; simp only; omega)
  have hsettle : ∀ u, Draws u (afterCompletion i p u) := fun u =>
    .of_only (afterCompletion_spec i p u).2.2.2.1 (by simp)
  have hpresent : ∀ u, Draws u (presentRemembered i u) := by
    intro u
    unfold presentRemembered
    simp only
    split
    · exact .after (draws_request i _ _) (draws_setLine i _)
    · exact .refl u
  rw [complete_eq]
  exact .after (hpresent _) (.after (draws_serve _) (.after (hsettle _) hbook))

theorem draws_pressHandle : Draws s (pressHandle i s) := by
  unfold pressHandle
  split
  · exact .refl s
  · split
    case h_5 => exact draws_request i s .handle
    case h_1 | h_2 | h_3 | h_4 => exact draws_refuseFlash i s
    all_goals exact .refl s

theorem draws_releaseHandle : Draws s (releaseHandle i s) := by
  unfold releaseHandle
  split
  · exact .refl s
  · split
    · exact .ite (.after (draws_setState i _ _) (.of_only (removeStart_only i s) (by simp))) (.refl s)
    · exact .ite (draws_endPour i s _) (.refl s)
    · exact .refl s

theorem draws_pressKey (k : Key) : Draws s (pressKey i k s) := by
  unfold pressKey
  split
  case h_5 => exact draws_request i s _
  case h_6 => exact .ite (draws_setLine i _) (.refl s)
  case h_1 | h_2 | h_3 | h_4 => exact draws_refuseFlash i s
  all_goals exact .refl s

end pours

/-! ## Cleaning -/

section cleaning

variable (s : State)

theorem draws_enterStep (n runFrom : Nat) : Draws s (enterStep n runFrom s) :=
  .of_only (enterStep_spec n runFrom s).2 (by simp)

theorem draws_evaluateClaim : Draws s (evaluateClaim s) := .of_only (evaluateClaim_only s) (by simp)

theorem draws_returnSlots : Draws s (returnSlots s) := .of_only (returnSlots_frame s).2 (by simp)

theorem draws_releaseLine (failed : Bool) (i : LineNo) : Draws s (releaseLine failed i s) :=
  .of_only (releaseLine_spec failed i s).2.2.2 (by simp)

theorem draws_writeClean (j : Job) (result : RunResult) (last : Option Nat) :
    Draws s (writeClean j result last s) :=
  .of_only (writeClean_spec j result last s).2 (by simp)

/-- The volume of a WASTE record is drawn (R73, R82). -/
theorem draws_wasteLine (j : Job) (i : LineNo) : Draws s (wasteLine j i s) := by
  obtain ⟨⟨-, -, hdrew, -, honly⟩, -⟩ := wasteLine_spec j i s
  exact .of_drew hdrew (honly .peers (by simp))

theorem draws_endRunning (result : RunResult) : Draws s (endRunning result s) := by
  cases hjob : s.clean.job with
  | none => simp only [endRunning, hjob]; exact .refl s
  | some j =>
    cases hprog : s.clean.progress with
    | none => simp only [endRunning, hjob, hprog]; exact .refl s
    | some p =>
      have hoff : Draws s (runOff s) := .of_only (runOff_spec s).2.2.2.2 (by simp)
      have hover : ∀ u, Draws u (runOver u) := fun u =>
        .after (draws_raise _) (.after (draws_requestStatus _) (.after (draws_modClean _)
          (draws_modClean _)))
      rw [endRunning_eq result hjob hprog]
      exact .after (hover _) (.after (draws_overLines (fun i s => draws_releaseLine s _ i) _ _)
        (.after (draws_returnSlots _) (.after (draws_writeClean _ _ _ _)
          (.after (draws_overLines (fun i s => draws_wasteLine s j i) _ _) hoff))))

theorem draws_endEarly : Draws s (endEarly s) := by
  unfold endEarly
  split
  · next j _ =>
    have hlines : Draws s (overLines withdrawOrRelease (linesOf j.lines) s) :=
      draws_overLines (fun i s => .of_only (withdrawOrRelease_spec i s).2.2 (by simp)) _ s
    have hidle : ∀ u, Draws u (goIdle u) := fun u => draws_modClean _
    have hended := Draws.after (hidle _) (.after (draws_returnSlots _)
      (.after (draws_writeClean _ j .aborted none) hlines))
    exact .after (draws_raise _) (.ite (.after (draws_requestStatus _) hended) hended)
  · exact .refl s

theorem draws_abortRun : Draws s (abortRun s) := by
  unfold abortRun
  split
  · exact .refl s
  · exact draws_endEarly s
  · exact draws_endEarly s
  · exact draws_endRunning s _

theorem draws_takeNext (p : Progress) : Draws s (takeNext p s) := by
  unfold takeNext
  split
  · exact draws_enterStep s _ _
  · exact draws_endRunning s _

theorem draws_takeFaultNext (p : Progress) : Draws s (takeFaultNext p s) := by
  unfold takeFaultNext
  split
  · exact draws_enterStep s _ _
  · exact draws_endRunning s _

theorem draws_afterFlagChange : Draws s (afterFlagChange s) := by
  unfold afterFlagChange
  split
  · exact .ite (draws_takeNext s _) (.refl s)
  · exact .refl s

theorem draws_singleExpiry (p : Progress) : Draws s (singleExpiry p s) :=
  .ite (draws_takeNext s p) (draws_takeFaultNext s p)

theorem draws_dwellExpires (p : Progress) : Draws s (dwellExpires p s) := by
  unfold dwellExpires
  simp only
  split
  · exact .refl s
  · exact .ite (draws_singleExpiry s p) (.ite (draws_takeNext s p) (draws_modClean _))

theorem draws_limitExpires (p : Progress) : Draws s (limitExpires p s) := by
  unfold limitExpires
  simp only
  split
  · exact .refl s
  · split
    · exact draws_takeFaultNext s p
    · exact .ite (draws_singleExpiry s p) (.refl s)

theorem draws_stepEvent {f : Progress → State → State} (h : ∀ p, Draws s (f p s)) :
    Draws s (stepEvent f s) := by
  unfold stepEvent
  split
  · exact h _
  · exact .refl s

theorem draws_cleaningPulse (i : LineNo) (p : Progress) : Draws s (cleaningPulse i p s) := by
  have hcount : ∀ f g, Draws s (modClean f (modClean g s)) := fun _ _ =>
    .after (draws_modClean _) (draws_modClean _)
  exact .ite (.after (draws_afterFlagChange _) (hcount _ _)) (hcount _ _)

theorem draws_checkPrepared : Draws s (checkPrepared s) :=
  .ite (.of_only (enterClaiming_spec s).2.2 (by simp)) (.refl s)

theorem draws_takePulse (i : LineNo) : Draws s (takePulse i s) := by
  unfold takePulse
  simp only
  split
  · exact .refl s
  · split
    · split
      · exact draws_pourPulse i s _
      · exact .refl s
    · split
      · exact draws_pourPulse i s _
      · exact .refl s
    · exact draws_stepEvent s (draws_cleaningPulse s i)
    · exact draws_creepPulse i s

end cleaning

end Sys2Proof.Machine

/-! SUPPORT. What a peer's STATUS leaves of the volumes drawn (R83, R93). -/

namespace Sys2Proof.Machine

/-! ## The peer draw, record by record -/

/-- What a place of the Peer Table adds to the peer draw of a source (R83). -/
def countedIn (gen : BitVec 8) (x : SourceNo) (p : Option PeerRec) : Nat :=
  (p.bind (countedDraw gen x)).getD 0

theorem sum_counted (gen : BitVec 8) (x : SourceNo) (ps : List (Option PeerRec)) :
    ((ps.filterMap id).filterMap (countedDraw gen x)).sum = (ps.map (countedIn gen x)).sum := by
  induction ps with
  | nil => rfl
  | cons p rest ih =>
    rw [List.map_cons, List.sum_cons, ← ih]
    cases p with
    | none => simp [countedIn]
    | some p => cases hc : countedDraw gen x p <;> simp [countedIn, hc]

theorem sum_map_set {α : Type} (f : α → Nat) (l : List α) (n : Nat) (a : α) (h : n < l.length) :
    ((l.set n a).map f).sum + f l[n] = (l.map f).sum + f a := by
  induction l generalizing n with
  | nil => simp at h
  | cons b rest ih =>
    cases n with
    | zero => simp; omega
    | succ n =>
      have h := ih n (by simpa using h)
      simp only [List.set_cons_succ, List.map_cons, List.sum_cons, List.getElem_cons_succ]
      omega

/-- One record stored for another in the Peer Table (R125). -/
theorem peerDraw_setPeer (s : State) (n : Fin 32) (p : Option PeerRec) (x : SourceNo) :
    (s.setPeer n p).peerDraw x + countedIn (s.source x).gen x (s.peer n) =
      s.peerDraw x + countedIn (s.source x).gen x p := by
  have h := sum_map_set (countedIn (s.source x).gen x) s.peers.toList n.val p (by
    rw [Vector.length_toList]; exact n.isLt)
  rw [Vector.getElem_toList, ← Vector.toList_set (h := n.isLt)] at h
  rw [State.peerDraw, State.peerDraw, setPeer_source, State.peerList, State.peerList, sum_counted,
    sum_counted]
  exact h

/-- A record adds its first cumulative of the generation, as the carry rule finds it (R83, R93). -/
theorem countedIn_some (r : SourceRec) (x : SourceNo) (p : PeerRec) :
    countedIn r.gen x (some p) = (r.storedCum (listed p.body.entries x)).getD 0 := rfl

theorem countedIn_held (r : SourceRec) (s : State) (n : Fin 32) (x : SourceNo) :
    countedIn r.gen x (s.peer n) = (r.storedCum (listed (heldEntries s n) x)).getD 0 := by
  cases hp : s.peer n with
  | none => simp only [heldEntries, hp]; rfl
  | some p => simp only [heldEntries, hp]; rfl

/-! ## The carry rule keeps drawn -/

/-- Carry is full, or carry and what the peer announces anew make up for what it announced (R93). -/
theorem carrying_covers {r : SourceRec} {stored new : Option LinkEntry}
    (h : ∀ e, new = some e → genOrder e.gen r.gen ≠ .newer) :
    4294967295 ≤ (r.carrying stored new).carry ∨ r.carry + (r.storedCum stored).getD 0 ≤
      (r.carrying stored new).carry + (r.storedCum new).getD 0 := by
  have hlost : (∀ e, new = some e → genOrder e.gen r.gen = .older) →
      4294967295 ≤ (r.carrying stored new).carry ∨
        r.carry + (r.storedCum stored).getD 0 ≤ (r.carrying stored new).carry := by
    intro ho
    rw [SourceRec.carrying_lost ho]
    simp only [SourceRec.carryWith]
    split
    next hc => exact .inr (by rw [hc]; exact le_refl _)
    next => omega
  cases new with
  | none => exact hlost (by simp)
  | some e =>
    cases ho : genOrder e.gen r.gen with
    | newer => exact absurd ho (h e rfl)
    | older =>
      exact (hlost fun e' he' => Option.some.inj he' ▸ ho).imp_right
        fun hle => hle.trans (Nat.le_add_right _ _)
    | equal =>
      have hg := genOrder_equal_iff.mp ho
      have hnew : (r.storedCum (some e)).getD 0 = e.cum.toNat := by
        simp [SourceRec.storedCum, hg]
      rw [SourceRec.carrying_equal hg, hnew]
      simp only [SourceRec.carryWith]
      cases r.storedCum stored with
      | none => simp
      | some c =>
        simp only [Option.getD_some, reduceCtorEq, if_false]
        split <;> omega

theorem lowTests_gen {stored new : List LinkEntry} {x : SourceNo} (s : State) :
    ((lowTests stored new s).source x).gen = (s.source x).gen := by
  rw [lowTests_source]

/-- A STATUS taken: where the generation stands, what the peer no longer announces is carried (R83, R93). -/
theorem drawnHolds_statusTaken (n : Fin 32) (b : StatusBody) (s : State) :
    DrawnHolds s (statusTaken n b s) := by
  intro x hgen
  obtain ⟨v, hv⟩ : ∃ v, v = processEntries (heldEntries s n) b.entries s := ⟨_, rfl⟩
  obtain ⟨p, hp, htaken⟩ : ∃ p : PeerRec, p.body = b ∧
      statusTaken n b s = lowTests (heldEntries s n) b.entries (v.setPeer n (some p)) :=
    ⟨{ fresh := true, lastAt := s.now, body := b }, rfl, by rw [hv]; rfl⟩
  rw [htaken, lowTests_gen, setPeer_source] at hgen
  have hnewer : ∀ e, listed b.entries x = some e → genOrder e.gen (s.source x).gen ≠ .newer := by
    intro e he ho
    obtain ⟨hsource, -⟩ := processEntries_adopted (stored := heldEntries s n) he ho
    rw [← hv] at hsource
    rw [hsource] at hgen
    rw [genOrder_equal_iff.mpr hgen] at ho
    exact absurd ho (by decide)
  have hsource := processEntries_source (stored := heldEntries s n) (not_adopts hnewer)
  rw [← hv, SourceRec.matching_keeps, SourceRec.carrying_keeps] at hsource
  have hpeers : v.peers = s.peers := hv ▸ processEntries_only s .peers (by simp)
  have hdraw := peerDraw_setPeer v n (some p) x
  have hheld : v.peer n = s.peer n := by simp only [State.peer, hpeers]
  rw [hgen, hheld, countedIn_held, countedIn_some, peerDraw_congr hpeers hgen, hp] at hdraw
  have hcovers := carrying_covers (stored := listed (heldEntries s n) x) hnewer
  rw [htaken, lowTests_drawn, State.drawn, State.drawn, setPeer_source, hsource]
  simp only
  omega

/-- A source that takes another generation; the others stand (R89, R90). -/
theorem drawnHolds_newGeneration (s : State) {x : SourceNo} {gen : BitVec 8} {full : Nat} {empty : Bool}
    (h : gen ≠ (s.source x).gen) : DrawnHolds s (newGeneration x gen full empty s) := by
  obtain ⟨hsource, -, hother, -⟩ := newGeneration_spec x gen full empty s
  intro y hy
  by_cases hyx : y = x
  · subst hyx
    rw [hsource] at hy
    exact absurd hy h
  · have hsame := hother y hyx
    rw [drawn_congr (newGeneration_only x gen full empty s .peers (by simp)) (by rw [hsame])
      (by rw [hsame]) (by rw [hsame])]

end Sys2Proof.Machine

/-! SUPPORT. Every command and event leaves the volumes drawn, the reset apart, and the statement (R83). -/

namespace Sys2Proof.Machine

/-! ## The cellar link -/

section link

variable (s : State)

theorem draws_duplicateStation : Draws s (duplicateStation s) := by
  unfold duplicateStation
  simp only
  exact .after (draws_raise _) (.ite (.refl s) (.ite (draws_modLink _)
    (.after (draws_raise _) (draws_modLink _))))

theorem draws_discardFrame (c : RxCheck) : Draws s (discardFrame c s) := draws_modLink _

theorem draws_startAttempt : Draws s (startAttempt s) := by
  unfold startAttempt
  split
  · split
    · exact draws_modLink _
    · exact .refl s
  · exact .refl s

theorem draws_dropFrame (kind : CurrentKind) : Draws s (dropFrame kind s) :=
  .after (draws_selectFrame _) (.ite (.after (draws_raise _) (draws_modLink _)) (draws_modLink _))

theorem draws_collide : Draws s (collide s) := by
  unfold collide
  split
  · exact .ite (.after (draws_dropFrame _ _) (draws_modLink _))
      (.after (draws_modLink _) (draws_modLink _))
  · exact .refl s

theorem draws_statusSuccess : Draws s (statusSuccess s) :=
  .ite (.after (draws_evaluateClaim _) (draws_modClean _)) (.refl s)

theorem draws_succeed : Draws s (succeed s) := by
  unfold succeed
  split
  · exact .after (draws_selectFrame _)
      (.ite (.after (draws_statusSuccess _) (draws_modLink _)) (draws_modLink _))
  · exact .refl s

theorem draws_readBack (t : TxFrame) (v : Byte) (err : Bool) : Draws s (readBack t v err s) :=
  .ite (draws_collide s) (.ite (draws_succeed s) (draws_modLink _))

/-- A record that goes STALE stays in the peer draw (R83, R127). -/
theorem draws_stale {n : Fin 32} {p : PeerRec} (h : s.peer n = some p) :
    Draws s (s.setPeer n (some { p with fresh := false })) := by
  refine ⟨fun _ => rfl, fun x => ?_⟩
  have hdraw := peerDraw_setPeer s n (some { p with fresh := false }) x
  have hcounted : countedIn (s.source x).gen x (some { p with fresh := false }) =
      countedIn (s.source x).gen x (s.peer n) := by rw [h]; rfl
  rw [hcounted, Nat.add_right_cancel_iff] at hdraw
  rw [State.drawn, State.drawn, setPeer_source, hdraw]

theorem draws_staleRegrant : Draws s (staleRegrant s) := by
  have hgrant : Draws s (regrant s) := .of_eq rfl rfl
  exact .ite (.after (draws_serve _) hgrant) hgrant

/-- A CHANGE moves the generation of its source, or the full volume (R91). -/
theorem drawnHolds_takeChange (b : ChangeBody) : DrawnHolds s (takeChange b s) := by
  by_cases hb : 16 ≤ b.source.toNat
  · rw [takeChange_none hb]
    exact (Draws.refl s).holds
  · obtain ⟨x, hx⟩ : ∃ x : SourceNo, b.source.toNat = x.val := ⟨⟨_, Nat.not_le.mp hb⟩, rfl⟩
    obtain ⟨holder, hequal, hnewer⟩ := takeChange_spec (s := s) hx
    cases ho : genOrder b.gen (s.source x).gen with
    | older =>
      rw [holder ho]
      exact (Draws.refl s).holds
    | equal =>
      rw [hequal ho]
      have hfull : Draws s (s.setSource x { s.source x with full := b.full.toNat }) :=
        .of_source (setSource_only s x _) (by simp) (setSource_others s x _)
          (by rw [source_setSource_same]) (by rw [source_setSource_same])
          (by rw [source_setSource_same]; exact Nat.min_le_left _ _)
      exact (hfull.trans (draws_lowTest _ x)).holds
    | newer =>
      rw [hnewer ho]
      refine drawnHolds_newGeneration s fun hg => ?_
      rw [genOrder_equal_iff.mpr hg] at ho
      exact absurd ho (by decide)

theorem drawnHolds_handFrame (f : LinkFrame) : DrawnHolds s (handFrame f s) := by
  unfold handFrame
  split
  · exact (draws_duplicateStation s).holds
  · split
    · exact drawnHolds_takeChange s _
    · split
      · rw [applyStatus_eq]
        exact (drawnHolds_statusTaken _ _ s).trans (draws_evaluateClaim _)
      · exact (Draws.refl s).holds

theorem drawnHolds_arriveFrame (f : LinkFrame) : DrawnHolds s (arriveFrame f s) := by
  unfold arriveFrame
  split
  · exact (drawnHolds_handFrame _ f).after (draws_modLink _)
  · exact (draws_discardFrame s _).holds

theorem drawnHolds_takeChar (v : Byte) (err : Bool) : DrawnHolds s (takeChar v err s) := by
  unfold takeChar
  split
  · exact (Draws.refl s).holds
  · exact (Draws.refl s).holds
  · exact (Draws.ite (draws_discardFrame s _) (.ite (draws_modLink _) (draws_discardFrame s _))).holds
  · split
    · exact (draws_modLink _).holds
    · exact (draws_discardFrame s _).holds
    · exact drawnHolds_arriveFrame s _
  · split
    · exact (draws_readBack s _ v err).holds
    · exact (Draws.refl s).holds

end link

/-! ## The commands -/

section commands

variable (s : State)

theorem draws_configureBody (img : List Byte) : Draws s (configureBody img s).1 := by
  have haccept : Draws s (acceptImage img s) := by
    have hloaded : Draws s (modLink (fun k => { k with
        rx := .discard, idleFrom := some s.now, announceFrom := some s.now }) { s with
          config := some (loadCfg img), station := .stopped, seconds := 0, secondFrom := some s.now }) :=
      .of_eq rfl rfl
    have hcool : ∀ u k, Draws u { u with cool := k } := fun u k => .of_only (cool_only u k) (by simp)
    exact .after (hcool _ _) (.after (hcool _ _) (.after (draws_requestStatus _) hloaded))
  unfold configureBody
  split
  · exact .refl s
  · split
    · exact .refl s
    · exact haccept

theorem draws_startBody : Draws s (startBody s).1 := by
  unfold startBody
  split
  · exact .refl s
  · simp only [accept]
    obtain ⟨-, -, honly, -⟩ := startStation_spec s
    exact .of_only honly (by simp)

theorem draws_stopBody : Draws s (stopBody s).1 := by
  have htower : Draws s (closeTower s) := .after (draws_overLines (fun i s => draws_endIfPouring i s _) _ _)
    (.after (draws_overLines (fun i s => draws_refuseEntry i s _) _ _) (.of_eq rfl rfl))
  have hlines : ∀ u, Draws u (overLines stopLine allLines u) := fun u =>
    draws_overLines (fun i s => .of_only (stopLine_spec i s).2.2 (by simp)) _ u
  have hleave : leaveRunning s = overLines stopLine allLines (abortRun (closeTower s)) := rfl
  unfold stopBody
  split
  · exact .refl s
  · simp only [accept, hleave]
    exact .after (draws_requestStatus _) (.after (hlines _) (.after (draws_abortRun _) htower))

theorem draws_readLineBody (line : Byte) : Draws s (readLineBody line s).1 := by
  unfold readLineBody
  split
  · exact .refl s
  · split <;> exact .refl s

theorem draws_readSourceBody (source : Byte) : Draws s (readSourceBody source s).1 := by
  unfold readSourceBody
  split
  · exact .refl s
  · split <;> exact .refl s

theorem draws_readPeerBody (station : Byte) : Draws s (readPeerBody station s).1 := by
  unfold readPeerBody
  split
  · exact .refl s
  · split
    · exact .refl s
    · split <;> exact .refl s

theorem draws_readLinkBody : Draws s (readLinkBody s).1 := by
  unfold readLinkBody
  split
  · exact .refl s
  · exact .of_eq rfl rfl

theorem draws_takeRecordBody : Draws s (takeRecordBody s).1 := by
  unfold takeRecordBody
  split
  · exact .refl s
  · split
    · exact .refl s
    · exact .after (draws_serve _) (.of_eq rfl rfl)

theorem draws_orderBody (line : Byte) (tag volume : BitVec 16) :
    Draws s (orderBody line tag volume s).1 := by
  unfold orderBody
  split
  · exact .refl s
  · split
    · exact .refl s
    · split
      · exact .refl s
      · split
        · exact .refl s
        · exact draws_setLine _ _

theorem draws_cancelBody (line : Byte) (tag : BitVec 16) : Draws s (cancelBody line tag s).1 := by
  unfold cancelBody
  split
  · exact .refl s
  · split
    · exact .refl s
    · split
      · exact draws_setLine _ _
      · split
        · split
          · exact draws_endPour _ s _
          · exact .refl s
        · exact .refl s

theorem draws_pourStopBody (line : Byte) : Draws s (pourStopBody line s).1 := by
  unfold pourStopBody
  split
  · exact .refl s
  · split
    · exact .refl s
    · split
      · exact draws_endPour _ s _
      · exact draws_refuseEntry _ s _
      · exact draws_setLine _ _
      · exact .refl s

theorem draws_unlockBody (line : Byte) : Draws s (unlockBody line s).1 := by
  unfold unlockBody
  split
  · exact .refl s
  · split
    · exact .refl s
    · split
      · exact .refl s
      · exact draws_clearLock _ s

theorem draws_calibrateBody (line : Byte) (va : BitVec 32) : Draws s (calibrateBody line va s).1 := by
  unfold calibrateBody
  split
  · exact .refl s
  · split
    · exact .refl s
    · split
      · exact .refl s
      · split
        · exact .refl s
        · simp only
          split
          · exact .refl s
          · exact .of_eq rfl rfl

/-- SOURCE-CHANGE moves the generation (R89). -/
theorem drawnHolds_sourceChangeBody (source : Byte) (full : BitVec 32) :
    DrawnHolds s (sourceChangeBody source full s).1 := by
  have hnext : ∀ g : BitVec 8, g + 1 ≠ g := fun g => by simp
  unfold sourceChangeBody
  split
  · exact (Draws.refl s).holds
  · split
    · exact (Draws.refl s).holds
    · split
      · exact (Draws.refl s).holds
      · split
        · exact (Draws.refl s).holds
        · exact ((drawnHolds_newGeneration s (hnext _)).trans (draws_modLink _)).trans
            (draws_selectFrame _)

theorem draws_clearMuteBody : Draws s (clearMuteBody s).1 := by
  unfold clearMuteBody
  split
  · exact .refl s
  · exact .after (draws_requestStatus _) (draws_modLink _)

theorem draws_acceptRun (entry : Nat) (lines : Byte) : Draws s (acceptRun entry lines s) := by
  have hreserve : ∀ i u, Draws u (reserveLine i u) := fun i u =>
    .of_only (reserveLine_frame i u).2 (by simp)
  exact .after (draws_checkPrepared _) (.after (draws_modClean _) (.after (draws_overLines hreserve _ _)
    (.after (draws_modClean _) (.of_eq rfl rfl))))

theorem draws_cleanStartBody (entry lines : Byte) : Draws s (cleanStartBody entry lines s).1 := by
  unfold cleanStartBody
  split
  · exact .refl s
  · split
    · exact .refl s
    · split
      · exact .refl s
      · split
        · exact .refl s
        · split
          · exact .refl s
          · exact draws_acceptRun s _ _

theorem draws_cleanAbortBody : Draws s (cleanAbortBody s).1 := by
  unfold cleanAbortBody
  split
  · exact .refl s
  · exact draws_abortRun s

end commands

/-! ## Every command and event -/

/-- A station that has not been reset has let no reading of drawn fall while its generation stands (R83). -/
def DrawnKept (s t : State) : Prop := t.station ≠ .unconfigured → DrawnHolds s t

section events

variable {s t : State}

theorem DrawnHolds.kept (h : DrawnHolds s t) : DrawnKept s t := fun _ => h

theorem Draws.kept (h : Draws s t) : DrawnKept s t := h.holds.kept

theorem DrawnKept.of_reset (h : t.station = .unconfigured) : DrawnKept s t := fun ht => absurd h ht

theorem DrawnKept.ite {c : Prop} [Decidable c] {u : State} (h : DrawnKept s t) (h' : DrawnKept s u) :
    DrawnKept s (if c then t else u) := by
  split
  · exact h
  · exact h'

theorem drawnKept_powered {f : State → State} (h : DrawnKept s (f s)) : DrawnKept s (powered s f) :=
  .ite (Draws.refl s).kept h

/-- A command period marks an overrun, resets, or executes its command (R188, R189, R193). -/
theorem drawnKept_command {body : State → State × Answer} (h : ∀ s, DrawnHolds s (body s).1) :
    DrawnKept s (command body s) := by
  refine drawnKept_powered (.ite (Draws.of_eq rfl rfl).kept (.ite (.of_reset rfl) ?_))
  have hbegin : Draws s (beginCommand s) := .of_eq rfl rfl
  exact (((h _).after hbegin).trans (.of_eq rfl rfl)).kept

theorem drawnKept_readOut (n : Nat) : DrawnKept s (readOut n s) := by
  unfold readOut
  simp only
  split
  · exact .of_reset rfl
  · exact (Draws.of_eq rfl rfl).kept

theorem drawnKept_execPeerExpiry (station : Byte) (h : execPeerExpiry station s = .next t) :
    DrawnKept s t := by
  obtain rfl := Host.Outcome.next.inj h
  refine drawnKept_powered ?_
  split
  · exact (Draws.refl s).kept
  · split
    · exact (Draws.refl s).kept
    next hp =>
      exact (Draws.ite (.after (draws_evaluateClaim _) (.after (draws_staleRegrant _) (draws_stale s hp)))
        (.refl s)).kept

theorem drawnKept_execPourCompletion (i : LineNo) (h : execPourCompletion i s = .next t) :
    DrawnKept s t := by
  obtain rfl := Host.Outcome.next.inj h
  refine drawnKept_powered ?_
  split
  · exact (draws_complete i s _).kept
  · exact (Draws.refl s).kept

theorem drawnKept_execValveHoldDrive (i : LineNo) (h : execValveHoldDrive i s = .next t) :
    DrawnKept s t := by
  obtain rfl := Host.Outcome.next.inj h
  refine drawnKept_powered ?_
  split
  · exact (draws_setLine i _).kept
  · exact (Draws.refl s).kept

theorem drawnKept_execIdleGapExpiry (h : execIdleGapExpiry s = .next t) : DrawnKept s t := by
  obtain rfl := Host.Outcome.next.inj h
  refine drawnKept_powered ?_
  split
  · exact (draws_modLink _).kept
  · exact (draws_discardFrame s _).kept
  · exact (Draws.refl s).kept

theorem drawnKept_execResponseReady (h : execResponseReady s = .next t) : DrawnKept s t := by
  obtain rfl := Host.Outcome.next.inj h
  refine drawnKept_powered ?_
  split
  · exact (Draws.of_eq rfl rfl).kept
  · exact (Draws.refl s).kept

theorem draws_sample (code : BitVec 12) : Draws s (sample code s) := by
  obtain ⟨u, hu, hsample⟩ := sampled_only code s
  have hlamps : Draws s (relampAll u) :=
    .after (.of_only (overLines_only relamp_only allLines u) (by simp)) (.of_only hu (by simp))
  rw [hsample]
  exact .ite (.after (draws_serve _) hlamps) hlamps

/-- An event whose outcome is a next state keeps what its operation keeps. -/
theorem drawnKept_next {u : State}
    (h : (Host.Outcome.next u : Host.Outcome State Fault Refusal) = .next t) (hu : DrawnKept s u) :
    DrawnKept s t :=
  Host.Outcome.next.inj h ▸ hu

/-- An event that changes no generation. -/
theorem drawnKept_event {f : State → State}
    (h : (Host.Outcome.next (powered s f) : Host.Outcome State Fault Refusal) = .next t)
    (hf : Draws s (f s)) : DrawnKept s t :=
  drawnKept_next h (drawnKept_powered hf.kept)

/-- A command that changes no generation. -/
theorem drawnKept_body {body : State → State × Answer}
    (h : (Host.Outcome.next (command body s) : Host.Outcome State Fault Refusal) = .next t)
    (hb : ∀ s, Draws s (body s).1) : DrawnKept s t :=
  drawnKept_next h (drawnKept_command fun s => (hb s).holds)

/-- Every command and event leaves what is drawn, the reset apart. -/
theorem drawnKept_exec (c : Instr) (h : exec c s = .next t) : DrawnKept s t := by
  cases c with
  | configure image => exact drawnKept_body h fun s => draws_configureBody s image
  | start => exact drawnKept_body h draws_startBody
  | stop => exact drawnKept_body h draws_stopBody
  | reset => exact drawnKept_body h fun _ => .of_eq rfl rfl
  | readStatus => exact drawnKept_body h fun s => .refl s
  | readLine line => exact drawnKept_body h fun s => draws_readLineBody s line
  | readSource source => exact drawnKept_body h fun s => draws_readSourceBody s source
  | readPeer station => exact drawnKept_body h fun s => draws_readPeerBody s station
  | readLink => exact drawnKept_body h draws_readLinkBody
  | readAttention => exact drawnKept_body h fun _ => .of_eq rfl rfl
  | takeRecord => exact drawnKept_body h draws_takeRecordBody
  | order line tag volume => exact drawnKept_body h fun s => draws_orderBody s line tag volume
  | cancel line tag => exact drawnKept_body h fun s => draws_cancelBody s line tag
  | pourStop line => exact drawnKept_body h fun s => draws_pourStopBody s line
  | unlock line => exact drawnKept_body h fun s => draws_unlockBody s line
  | calibrate line va => exact drawnKept_body h fun s => draws_calibrateBody s line va
  | sourceChange source full =>
    exact drawnKept_next h (drawnKept_command fun s => drawnHolds_sourceChangeBody s source full)
  | cleanStart entry lines => exact drawnKept_body h fun s => draws_cleanStartBody s entry lines
  | cleanAbort => exact drawnKept_body h draws_cleanAbortBody
  | clearMute => exact drawnKept_body h draws_clearMuteBody
  | commandNotExecuted => exact drawnKept_body h fun s => .refl s
  | readPeriod bytes =>
    exact drawnKept_next h (drawnKept_powered (.ite (Draws.refl s).kept (drawnKept_readOut bytes)))
  | responseReady => exact drawnKept_execResponseReady h
  | resetResponseTimeout =>
    exact drawnKept_next h (drawnKept_powered (.ite (.of_reset rfl) (Draws.refl s).kept))
  | rstnAssert => exact drawnKept_next h (.of_reset rfl)
  | rstnRelease => exact drawnKept_next h (.of_reset rfl)
  | portReadyAfterReset => exact drawnKept_event h (.ite (.of_eq rfl rfl) (.refl s))
  | handlePress i =>
    exact drawnKept_event h
      (.ite (.after (draws_pressHandle i _) (draws_setLine i _)) (draws_setLine i _))
  | handleRelease i =>
    exact drawnKept_event h
      (.ite (.after (draws_releaseHandle i _) (draws_setLine i _)) (draws_setLine i _))
  | keyPress i k =>
    exact drawnKept_event h
      (.ite (.after (draws_pressKey i _ k) (draws_setLine i _)) (draws_setLine i _))
  | keyEntryExpiry i => exact drawnKept_event h (.ite (draws_refuseEntry i s _) (.refl s))
  | refuseFlashEnd i =>
    exact drawnKept_event h
      (.ite (.after (.of_only (relamp_only i _) (by simp)) (draws_setLine i _)) (.refl s))
  | valveHoldDrive i => exact drawnKept_execValveHoldDrive i h
  | meterPulse i => exact drawnKept_event h (.after (draws_takePulse _ i) (draws_setLine i _))
  | noFlowExpiry i => exact drawnKept_event h (draws_endIfPouring i s _)
  | pourTimerExpiry i => exact drawnKept_event h (draws_endIfPouring i s _)
  | pourCompletion i => exact drawnKept_execPourCompletion i h
  | stationSecondsTick => exact drawnKept_event h (.ite (.refl s) (.of_eq rfl rfl))
  | validFrameArrival frame =>
    exact drawnKept_next h (drawnKept_powered
      (.ite (drawnHolds_arriveFrame s frame).kept (Draws.refl s).kept))
  | frameDiscarded check => exact drawnKept_event h (.ite (draws_discardFrame s check) (.refl s))
  | idleGapExpiry => exact drawnKept_execIdleGapExpiry h
  | announcementTimerExpiry =>
    exact drawnKept_event h (.ite (.refl s) (.after (draws_requestStatus _) (draws_modLink _)))
  | accessWaitExpiry => exact drawnKept_event h (.ite (.refl s) (draws_startAttempt s))
  | collision => exact drawnKept_event h (draws_collide s)
  | transmitSuccess => exact drawnKept_event h (draws_succeed s)
  | peerExpiry station => exact drawnKept_execPeerExpiry station h
  | sensorSample code => exact drawnKept_event h (.ite (.refl s) (draws_sample code))
  | glycolFrameStart => exact drawnKept_event h (.ite (.refl s) (.of_eq rfl rfl))
  | glycolOnTimeEnd => exact drawnKept_event h (.of_eq rfl rfl)
  | conditionPinChange pin level =>
    exact drawnKept_event h (.ite (.refl s) (.after (draws_afterFlagChange _) (draws_modClean _)))
  | flowTimeout =>
    exact drawnKept_event h (draws_stepEvent s fun _ =>
      .ite (.after (draws_afterFlagChange _) (draws_modClean _)) (.refl s))
  | dwellExpiry => exact drawnKept_event h (draws_stepEvent s (draws_dwellExpires s))
  | limitExpiry => exact drawnKept_event h (draws_stepEvent s (draws_limitExpires s))
  | runLimitExpiry => exact drawnKept_event h (draws_stepEvent s fun _ => draws_endRunning s .failed)
  | characterStart => exact drawnKept_event h (.ite (.refl s) (draws_modLink _))
  | characterTaken value err =>
    exact drawnKept_next h (drawnKept_powered (drawnHolds_takeChar s value err).kept)
  | lampBlinkPhase i => exact drawnKept_event h (.ite (draws_setLine i _) (.refl s))

/-- The queue, the clock and the input stages draw nothing. -/
theorem drawnKept_step (h : step s = .next t) : DrawnKept s t := by
  cases hp : s.pending with
  | cons c rest =>
    simp only [step, hp] at h
    have hqueue : Draws s { s with pending := rest } := .of_eq rfl rfl
    exact fun ht => (drawnKept_exec c h ht).after hqueue
  | nil =>
    simp only [step, hp, idleStep] at h
    cases hd : due s with
    | some c =>
      rw [hd] at h
      have hdue : Draws s (takeDue c s) := .of_only (settleReceiver_only c s) (by simp)
      exact fun ht => (drawnKept_exec c h ht).after hdue
    | none =>
      rw [hd] at h
      exact drawnKept_next h (Draws.of_only (tick_only s) (by simp)).kept

end events

/-- Settles O58: no operation but the reset lowers what is drawn of a generation; what a peer's STATUS no
longer announces is carried. -/
theorem drawnNeverFalls : Obligations.DrawnNeverFalls :=
  fun _ _ x h ht hx => drawnKept_step h ht x hx

end Sys2Proof.Machine

/-! SUPPORT. What the operations outside the cellar link can do to it: at most they ask for a STATUS (R111). -/

namespace Sys2Proof.Machine

/-! ## A STATUS asked for -/

/-- An operation outside the cellar link leaves the station state, the Peer Table and the clock, and at most
asks for a STATUS (R111). -/
structure Asks (s t : State) : Prop where
  station : t.station = s.station
  peers : t.peers = s.peers
  now : t.now = s.now
  link : t.link = s.link ∨ t.link = (requestStatus s).link

section asks

variable {s t u : State} {ps : List Part}

/-- A request reads the link and the station state. -/
theorem requestStatus_link_congr (hl : t.link = s.link) (hs : t.station = s.station) :
    (requestStatus t).link = (requestStatus s).link := by
  simp only [requestStatus, hl, hs]
  split
  · exact hl
  · rfl

/-- A current frame stays (R110). -/
theorem chooseFrame_some {k : Link} {c : Current} (h : k.current = some c) : k.chooseFrame = k := by
  simp only [Link.chooseFrame, h]

/-- A request that the queue takes (R111). -/
theorem requestStatus_eq (h : s.link.mute = false) (hs : s.station ≠ .unconfigured) :
    requestStatus s = { s with link := ({ s.link with statusReq := true } : Link).chooseFrame } := by
  simp only [requestStatus, h, Bool.false_or, beq_iff_eq, hs, if_false]
  rfl

theorem requestStatus_link (h : s.link.mute = false) (hs : s.station ≠ .unconfigured) :
    (requestStatus s).link = ({ s.link with statusReq := true } : Link).chooseFrame := by
  rw [requestStatus_eq h hs]

/-- A request that the queue does not take (R118, R121). -/
theorem requestStatus_closed (h : s.link.mute = true ∨ s.station = .unconfigured) :
    requestStatus s = s := by
  rw [requestStatus, if_pos (by simpa using h)]

/-- A frame chosen with a STATUS requested: one is current (R110). -/
theorem chooseFrame_requested {k : Link} (h : k.statusReq = true) : k.chooseFrame =
    { k with current := match k.current with
        | some c => some c
        | none => some ⟨if k.changes.isEmpty then .status else .change, 0⟩ } := by
  unfold Link.chooseFrame
  cases hc : k.current with
  | some c => simp only [← hc]
  | none => cases k.changes <;> simp [h]

/-- A STATUS asked for twice is asked for once. -/
theorem requestStatus_twice (hl : t.link = (requestStatus s).link) (hs : t.station = s.station) :
    (requestStatus t).link = t.link := by
  by_cases hclosed : s.link.mute = true ∨ s.station = .unconfigured
  · rw [requestStatus_closed hclosed] at hl
    rw [requestStatus_closed (by rwa [hl, hs])]
  · obtain ⟨hm, hst⟩ := not_or.mp hclosed
    have hm' : s.link.mute = false := by simpa using hm
    rw [requestStatus_link hm' hst, chooseFrame_requested rfl] at hl
    rw [requestStatus_link (by rw [hl]; exact hm') (by rwa [hs]), hl, chooseFrame_requested rfl]
    cases s.link.current <;> rfl

theorem Asks.refl (s : State) : Asks s s := ⟨rfl, rfl, rfl, .inl rfl⟩

theorem Asks.trans (h : Asks s t) (h' : Asks t u) : Asks s u := by
  refine ⟨h'.station.trans h.station, h'.peers.trans h.peers, h'.now.trans h.now, ?_⟩
  rcases h.link with hl | hl
  · rw [← requestStatus_link_congr hl h.station, ← hl]
    exact h'.link
  · refine .inr ?_
    rw [← hl]
    rcases h'.link with hl' | hl'
    · exact hl'
    · rw [hl', requestStatus_twice hl h.station]

/-- The same, from the last operation backwards. -/
theorem Asks.after (h' : Asks t u) (h : Asks s t) : Asks s u := h.trans h'

theorem Asks.of_only (h : Only ps s t)
    (hps : .station ∉ ps ∧ .peers ∉ ps ∧ .now ∉ ps ∧ .link ∉ ps) : Asks s t :=
  ⟨h .station hps.1, h .peers hps.2.1, h .now hps.2.2.1, .inl (h .link hps.2.2.2)⟩

/-- An operation made in some states and not in others. -/
theorem Asks.ite {c : Prop} [Decidable c] (h : Asks s t) (h' : Asks s u) :
    Asks s (if c then t else u) := by
  split
  · exact h
  · exact h'

theorem asks_requestStatus (s : State) : Asks s (requestStatus s) :=
  ⟨requestStatus_only s .station (by simp), requestStatus_only s .peers (by simp),
    requestStatus_only s .now (by simp), .inr rfl⟩

theorem asks_setLine (i : LineNo) (l : Line) : Asks s (s.setLine i l) :=
  .of_only (setLine_only s i l) (by simp)

theorem asks_setSource (x : SourceNo) (r : SourceRec) : Asks s (s.setSource x r) :=
  .of_only (setSource_only s x r) (by simp)

theorem asks_modClean (f : Cleaning → Cleaning) : Asks s (modClean f s) :=
  .of_only (modClean_only f s) (by simp)

theorem asks_raise (f : AttnFlag) : Asks s (raise f s) := .of_only (raise_only f s) (by simp)

theorem asks_overLines {f : LineNo → State → State} (h : ∀ i s, Asks s (f i s)) (is : List LineNo)
    (s : State) : Asks s (overLines f is s) := by
  induction is generalizing s with
  | nil => exact .refl s
  | cons i rest ih => exact (h i s).trans (ih _)

theorem asks_foldSources {f : SourceNo → State → State} (h : ∀ x s, Asks s (f x s))
    (xs : List SourceNo) (s : State) : Asks s (xs.foldl (fun s x => f x s) s) := by
  induction xs generalizing s with
  | nil => exact .refl s
  | cons x rest ih => exact (h x s).trans (ih _)

end asks

/-! ## The Source View -/

section sources

variable (x : SourceNo) (s : State)

theorem asks_emptyEffects : Asks s (emptyEffects x s) := by
  have hlamps : ∀ u, Asks u (relampSource x u) := fun u =>
    .of_only (overLines_only relamp_only _ u) (by simp)
  have hrefuse : ∀ u, Asks u (refuseSource x u) := fun u =>
    .of_only (overLines_only (fun i v => (refuseEntry_spec i .ready v).2.2.2) _ u) (by simp)
  exact .after (hlamps _) (.after (hrefuse _) (.after (asks_requestStatus _) (asks_raise _)))

theorem asks_setEmpty : Asks s (setEmpty x s) :=
  .ite (.refl s) (.after (asks_emptyEffects x _) (asks_setSource x _))

theorem asks_newGeneration (gen : BitVec 8) (full : Nat) (empty : Bool) :
    Asks s (newGeneration x gen full empty s) :=
  .of_only (newGeneration_only x gen full empty s) (by simp)

theorem asks_adopt (gen : BitVec 8) (full : Nat) (empty : Bool) : Asks s (adopt x gen full empty s) :=
  .ite (.after (asks_emptyEffects x _) (asks_newGeneration x s _ _ _)) (asks_newGeneration x s _ _ _)

theorem asks_lowTest : Asks s (lowTest x s) := .of_only (lowTest_only x s) (by simp)

theorem asks_takeChange (b : ChangeBody) : Asks s (takeChange b s) := by
  unfold takeChange
  split
  · simp only
    split
    · exact asks_adopt _ s _ _ _
    · exact .after (asks_lowTest _ _) (asks_setSource _ _)
    · exact .refl s
  · exact .refl s

theorem asks_carryStep (stored new : Option LinkEntry) : Asks s (carryStep x stored new s) := by
  unfold carryStep
  simp only
  split
  · exact .ite (asks_setSource x _) (.refl s)
  · exact .refl s

theorem asks_equalStep (new : Option LinkEntry) : Asks s (equalStep x new s) := by
  unfold equalStep
  simp only
  split
  · have hfull : ∀ n : Nat, Asks s (if (s.source x).full = 0 then
        s.setSource x { s.source x with full := n } else s) := fun _ =>
      .ite (asks_setSource x _) (.refl s)
    exact .ite (.ite (.after (asks_setEmpty x _) (hfull _)) (hfull _)) (.refl s)
  · exact .refl s

theorem asks_processSource (stored new : List LinkEntry) : Asks s (processSource stored new x s) := by
  unfold processSource
  simp only
  split
  · exact .ite (asks_adopt x s _ _ _) (.after (asks_equalStep x _ _) (asks_carryStep x s _ _))
  · exact asks_carryStep x s _ _

theorem asks_processEntries (stored new : List LinkEntry) : Asks s (processEntries stored new s) :=
  asks_foldSources (fun x u => asks_processSource x u stored new) _ s

theorem asks_lowTests (stored new : List LinkEntry) : Asks s (lowTests stored new s) :=
  asks_foldSources asks_lowTest _ s

end sources

/-! ## Cleaning -/

section cleaning

variable (s : State)

theorem asks_enterStep (n runFrom : Nat) : Asks s (enterStep n runFrom s) :=
  .of_only (enterStep_spec n runFrom s).2 (by simp)

/-- The end of a run is announced (R182, R183). -/
theorem asks_endRunning (result : RunResult) : Asks s (endRunning result s) := by
  cases hjob : s.clean.job with
  | none => simp only [endRunning, hjob]; exact .refl s
  | some j =>
    cases hprog : s.clean.progress with
    | none => simp only [endRunning, hjob, hprog]; exact .refl s
    | some p =>
      have hover : ∀ u, Asks u (runOver u) := fun u =>
        .after (asks_raise _) (.after (asks_requestStatus _) (.after (asks_modClean _) (asks_modClean _)))
      have hlines : ∀ u, Asks u (overLines (releaseLine (result != .completed)) (linesOf j.lines) u) :=
        fun u => .of_only (overLines_releaseLine _ (linesOf_nodup _) u).2.2.2 (by simp)
      obtain ⟨⟨-, -, -, -, hwritten⟩, -⟩ := runWritten_spec result p hjob
      rw [endRunning_eq result hjob hprog]
      exact .after (hover _) (.after (hlines _) (.after (.of_only (returnSlots_frame _).2 (by simp))
        (.after (.of_only hwritten (by simp)) (.of_only (runOff_spec s).2.2.2.2 (by simp)))))

theorem asks_endEarly : Asks s (endEarly s) := by
  unfold endEarly
  split
  · next j _ =>
    have hlines : Asks s (overLines withdrawOrRelease (linesOf j.lines) s) :=
      .of_only (overLines_only (fun i u => (withdrawOrRelease_spec i u).2.2) _ s) (by simp)
    have hended := Asks.after (asks_modClean (fun c => { c with runState := .idle, job := none, age := 0 }))
      (.after (.of_only (returnSlots_frame _).2 (by simp))
        (.after (.of_only (writeClean_spec j .aborted none _).2 (by simp)) hlines))
    exact .after (asks_raise _) (.ite (.after (asks_requestStatus _) hended) hended)
  · exact .refl s

theorem asks_abortRun : Asks s (abortRun s) := by
  unfold abortRun
  split
  · exact .refl s
  · exact asks_endEarly s
  · exact asks_endEarly s
  · exact asks_endRunning s _

theorem asks_takeNext (p : Progress) : Asks s (takeNext p s) := by
  unfold takeNext
  split
  · exact asks_enterStep s _ _
  · exact asks_endRunning s _

theorem asks_takeFaultNext (p : Progress) : Asks s (takeFaultNext p s) := by
  unfold takeFaultNext
  split
  · exact asks_enterStep s _ _
  · exact asks_endRunning s _

theorem asks_afterFlagChange : Asks s (afterFlagChange s) := by
  unfold afterFlagChange
  split
  · exact .ite (asks_takeNext s _) (.refl s)
  · exact .refl s

theorem asks_singleExpiry (p : Progress) : Asks s (singleExpiry p s) :=
  .ite (asks_takeNext s p) (asks_takeFaultNext s p)

theorem asks_dwellExpires (p : Progress) : Asks s (dwellExpires p s) := by
  unfold dwellExpires
  simp only
  split
  · exact .refl s
  · exact .ite (asks_singleExpiry s p) (.ite (asks_takeNext s p) (asks_modClean _))

theorem asks_limitExpires (p : Progress) : Asks s (limitExpires p s) := by
  unfold limitExpires
  simp only
  split
  · exact .refl s
  · split
    · exact asks_takeFaultNext s p
    · exact .ite (asks_singleExpiry s p) (.refl s)

theorem asks_stepEvent {f : Progress → State → State} (h : ∀ p, Asks s (f p s)) :
    Asks s (stepEvent f s) := by
  unfold stepEvent
  split
  · exact h _
  · exact .refl s

theorem asks_cleaningPulse (i : LineNo) (p : Progress) : Asks s (cleaningPulse i p s) := by
  have hcount : ∀ f g, Asks s (modClean f (modClean g s)) := fun _ _ =>
    .after (asks_modClean _) (asks_modClean _)
  exact .ite (.after (asks_afterFlagChange _) (hcount _ _)) (hcount _ _)

theorem asks_checkPrepared : Asks s (checkPrepared s) :=
  .ite (.after (asks_requestStatus _) (asks_modClean _)) (.refl s)

/-- A run that enters RUNNING announces it (R171). -/
theorem asks_enterRunning : Asks s (enterRunning s) := by
  unfold enterRunning
  split
  · next j _ =>
    have hlines : ∀ u, Asks u (overLines activate (linesOf j.lines) u) := fun u =>
      .of_only (overLines_only (fun i v => (activate_frame i v).2) _ u) (by simp)
    exact .after (asks_enterStep _ _ _) (.after (asks_modClean _) (.after (asks_requestStatus _)
      (.after (hlines _) (asks_modClean _))))
  · exact .refl s

theorem asks_evaluateClaim : Asks s (evaluateClaim s) :=
  .ite (.ite (.after (asks_enterRunning _) (asks_modClean _)) (asks_modClean _)) (.refl s)

theorem asks_statusSuccess : Asks s (statusSuccess s) :=
  .ite (.after (asks_evaluateClaim _) (asks_modClean _)) (.refl s)

end cleaning

/-! ## The tower -/

section tower

variable (i : LineNo) (s : State)

theorem asks_request (kind : StartKind) : Asks s (request i kind s) :=
  .of_only (request_only i kind s) (by simp)

theorem asks_refuseEntry (st : LineState) : Asks s (refuseEntry i st s) :=
  .of_only (refuseEntry_spec i st s).2.2.2 (by simp)

theorem asks_endIfPouring (reason : EndReason) : Asks s (endIfPouring i reason s) :=
  .of_only (endIfPouring_others i reason s).2 (by simp)

theorem asks_endPour (reason : EndReason) : Asks s (endPour i reason s) := by
  cases hp : (s.line i).pour with
  | none => simp only [endPour, hp]; exact .refl s
  | some p => exact .of_only (endPour_spec i reason s p hp).2.2 (by simp)

/-- A FOAM-OUT sets EMPTY, which is announced (R86). -/
theorem asks_pourPulse (p : PourCtx) : Asks s (pourPulse i p s) := by
  unfold pourPulse
  simp only
  split
  · split
    · exact .after (asks_setEmpty _ _) (.after (asks_endPour i _ _) (asks_setLine i _))
    · exact .after (asks_endPour i _ _) (asks_setLine i _)
    · exact asks_setLine i _
  · exact asks_setLine i _

theorem asks_creepPulse : Asks s (creepPulse i s) := by
  have hlocked : ∀ u, Asks u (setLock i .leak u) := fun u => .of_only (setLock_spec i .leak u).2.2.2 (by simp)
  have hstate : ∀ u, Asks u (setState i .locked u) := fun u =>
    .of_only (setState_spec i .locked u).2.2 (by simp)
  unfold creepPulse
  simp only
  split
  · split
    · exact .after (hstate _) (.after (hlocked _) (asks_setLine i _))
    · exact .after (asks_refuseEntry i _ _) (.after (hlocked _) (asks_setLine i _))
    · exact asks_setLine i _
  · exact asks_setLine i _

theorem asks_takePulse : Asks s (takePulse i s) := by
  unfold takePulse
  simp only
  split
  · exact .refl s
  · split
    case h_1 | h_2 =>
      split
      · exact asks_pourPulse i s _
      · exact .refl s
    case h_3 => exact asks_stepEvent s (asks_cleaningPulse s i)
    case h_4 => exact asks_creepPulse i s

theorem asks_serve : Asks s (serve s) := .of_only (serve_only s) (by simp)

/-- A completion may let the run go on to its claim, which is announced (R176). -/
theorem asks_complete (p : PourCtx) : Asks s (complete i p s) := by
  obtain ⟨-, -, -, -, -, -, -, -, hbook⟩ := bookPour_spec i p s
  have hsettle : ∀ u, Asks u (afterCompletion i p u) := by
    intro u
    have hline : Asks u (settleLine i p u) := .of_only (settleLine_spec i p u).2.2.2 (by simp)
    rw [afterCompletion_eq]
    exact .ite (.after (asks_checkPrepared _) hline) hline
  have hpresent : ∀ u, Asks u (presentRemembered i u) := by
    intro u
    unfold presentRemembered
    simp only
    split
    · exact .after (asks_request i _ _) (asks_setLine i _)
    · exact .refl u
  rw [complete_eq]
  exact .after (hpresent _) (.after (asks_serve _) (.after (hsettle _) (.of_only hbook (by simp))))

theorem asks_refuseFlash : Asks s (refuseFlash i s) := .of_only (refuseFlash_spec i s).2.2 (by simp)

theorem asks_pressHandle : Asks s (pressHandle i s) := by
  unfold pressHandle
  split
  · exact .refl s
  · split
    case h_5 => exact asks_request i s .handle
    case h_1 | h_2 | h_3 | h_4 => exact asks_refuseFlash i s
    all_goals exact .refl s

theorem asks_releaseHandle : Asks s (releaseHandle i s) := by
  have hready : ∀ u, Asks u (setState i .ready u) := fun u =>
    .of_only (setState_spec i .ready u).2.2 (by simp)
  unfold releaseHandle
  split
  · exact .refl s
  · split
    · exact .ite (.after (hready _) (.of_only (removeStart_only i s) (by simp))) (.refl s)
    · exact .ite (asks_endPour i s _) (.refl s)
    · exact .refl s

theorem asks_pressKey (k : Key) : Asks s (pressKey i k s) := by
  unfold pressKey
  split
  case h_5 => exact asks_request i s _
  case h_6 => exact .ite (asks_setLine i _) (.refl s)
  case h_1 | h_2 | h_3 | h_4 => exact asks_refuseFlash i s
  all_goals exact .refl s

end tower

/-! ## The cooling -/

theorem asks_sample (code : BitVec 12) (s : State) : Asks s (sample code s) := by
  obtain ⟨u, hu, hsample⟩ := sampled_only code s
  have hlamps : Asks s (relampAll u) :=
    .after (.of_only (overLines_only relamp_only allLines u) (by simp)) (.of_only hu (by simp))
  rw [hsample]
  exact .ite (.after (asks_serve _) hlamps) hlamps

theorem asks_staleRegrant (s : State) : Asks s (staleRegrant s) := by
  have hgrant : Asks s (regrant s) := .of_only (cool_only s _) (by simp)
  exact .ite (.after (asks_serve _) hgrant) hgrant

end Sys2Proof.Machine

/-! SUPPORT. Every command and event keeps the transmit queue, the driver and the STALE records consistent, and
the statement (R100, R104, R110, R114, R118, R121, R127, R132). -/

namespace Sys2Proof.Machine

/-! ## The transmit queue -/

/-- The transmit queue of a station in service that is not in MUTE, before the next frame is chosen (R104,
R110). -/
structure Link.Open (k : Link) : Prop where
  room : k.changes.length ≤ 4
  current : ∀ c ∈ k.current, c.k ≤ 7 ∧ (c.kind = .change → k.changes ≠ [])
  readback : k.rx = .readback ↔ k.tx.isSome = true
  attempt : k.tx.isSome = true → k.current.isSome = true
  mute : k.mute = false

section queue

variable {s t u : State} {k : Link}

/-- With no frame to choose left, an open queue meets the invariant. -/
theorem Link.Open.linkOk (h : s.link.Open) (hs : s.station ≠ .unconfigured)
    (hchosen : s.link.current = none → s.link.changes = [] ∧ s.link.statusReq = false) : LinkOk s :=
  ⟨h.room, h.current, hchosen, h.readback, h.attempt, fun hm => by simp [h.mute] at hm,
    fun hd => absurd hd hs⟩

/-- The queue of a station that is not in MUTE is open. -/
theorem Link.open_of_ok (h : LinkOk s) (hm : s.link.mute = false) : s.link.Open := by
  obtain ⟨hroom, hcurrent, -, hreadback, hattempt, -, -⟩ := h
  exact ⟨hroom, hcurrent, hreadback, hattempt, hm⟩

/-- A frame is being sent only by a station in service that is not in MUTE (R118, R121). -/
theorem sending_open (h : LinkOk s) (htx : s.link.tx.isSome = true) :
    s.link.Open ∧ s.station ≠ .unconfigured := by
  obtain ⟨-, -, -, hreadback, -, hmute, hdown⟩ := id h
  refine ⟨Link.open_of_ok h ?_, fun hs => ?_⟩
  · cases hm : s.link.mute with
    | false => rfl
    | true => simp [(hmute hm).2] at htx
  · have hrx := hreadback.mpr htx
    simp [(hdown hs).1] at hrx

/-- With no current frame the oldest CHANGE is chosen, or else a STATUS requested (R110). -/
theorem chooseFrame_none (h : k.current = none) : k.chooseFrame = { k with
    current := if k.changes ≠ [] then some ⟨.change, 0⟩
      else if k.statusReq then some ⟨.status, 0⟩ else none } := by
  simp only [Link.chooseFrame, h, Bool.not_eq_true', List.isEmpty_eq_false_iff]
  split
  · rfl
  · split
    · rfl
    · rw [← h]

/-- A frame chosen keeps the queue open, and leaves none to choose (R110). -/
theorem Link.Open.choose (h : k.Open) : k.chooseFrame.Open ∧
    (k.chooseFrame.current = none → k.chooseFrame.changes = [] ∧ k.chooseFrame.statusReq = false) := by
  cases hc : k.current with
  | some c =>
    rw [chooseFrame_some hc]
    exact ⟨h, fun hn => by simp [hc] at hn⟩
  | none =>
    have htx : ¬ k.tx.isSome = true := fun htx => by simpa [hc] using h.attempt htx
    rw [chooseFrame_none hc]
    refine ⟨⟨h.room, fun c hcur => ?_, h.readback, fun ht => absurd ht htx, h.mute⟩, fun hn => ?_⟩
    · simp only at hcur
      split at hcur
      next hch =>
        obtain rfl := Option.some.inj hcur
        exact ⟨by simp, fun _ => hch⟩
      next =>
        split at hcur
        next =>
          obtain rfl := Option.some.inj hcur
          exact ⟨by simp, by simp⟩
        next => exact absurd hcur (by simp)
    · by_cases hch : k.changes = []
      · exact ⟨hch, by simpa [hch] using hn⟩
      · simp [hch] at hn

/-- Once the next frame is chosen an open queue meets the invariant. -/
theorem linkOk_selectFrame (h : s.link.Open) (hs : s.station ≠ .unconfigured) : LinkOk (selectFrame s) :=
  h.choose.1.linkOk hs h.choose.2

/-- A request leaves an open queue open (R111). -/
theorem Asks.open (h : Asks s t) (hs : s.station ≠ .unconfigured) (ho : s.link.Open) : t.link.Open := by
  rcases h.link with hl | hl
  · rwa [hl]
  · have hreq : ({ s.link with statusReq := true } : Link).Open :=
      ⟨ho.room, ho.current, ho.readback, ho.attempt, ho.mute⟩
    rw [hl, requestStatus_link ho.mute hs]
    exact hreq.choose.1

theorem linkOk_requestStatus (h : LinkOk s) : LinkOk (requestStatus s) := by
  by_cases hclosed : s.link.mute = true ∨ s.station = .unconfigured
  · rwa [requestStatus_closed hclosed]
  · obtain ⟨hm, hs⟩ := not_or.mp hclosed
    have ho := Link.open_of_ok h (by simpa using hm)
    rw [requestStatus, if_neg (by simpa using hclosed)]
    exact linkOk_selectFrame ⟨ho.room, ho.current, ho.readback, ho.attempt, ho.mute⟩ hs

end queue

/-! ## What an operation keeps of the link -/

/-- What the statement asks of the operations of the block. -/
structure Linked (s t : State) : Prop where
  queue : LinkOk s → LinkOk t
  driver : DriverOk s → DriverOk t
  stale : StaleOk s → StaleOk t

/-- The fields of the Link Controller that the queue, the attempt and the driver are made of, the others left
out of account. -/
def Link.working (k : Link) : Link :=
  { k with
    idleFrom := none, recv := .wait, announceFrom := none, charErr := 0, formatErr := 0, crcErr := 0,
    collisions := 0, drops := 0 }

section linked

variable {s t u : State} {ps : List Part}

theorem Linked.refl (s : State) : Linked s s := ⟨id, id, id⟩

theorem Linked.trans (h : Linked s t) (h' : Linked t u) : Linked s u :=
  ⟨h'.queue ∘ h.queue, h'.driver ∘ h.driver, h'.stale ∘ h.stale⟩

/-- The same, from the last operation backwards. -/
theorem Linked.after (h' : Linked t u) (h : Linked s t) : Linked s u := h.trans h'

/-- An operation made in some states and not in others. -/
theorem Linked.ite {c : Prop} [Decidable c] (h : Linked s t) (h' : Linked s u) :
    Linked s (if c then t else u) := by
  split
  · exact h
  · exact h'

/-- STALE records only grow older (R127). -/
theorem staleOk_of_peers (hp : t.peers = s.peers) (hn : s.now ≤ t.now) (h : StaleOk s) : StaleOk t := by
  intro n p hpeer hf
  have hs : t.peer n = s.peer n := by simp only [State.peer, hp]
  rw [hs] at hpeer
  exact (h n p hpeer hf).trans hn

/-- Queue, attempt and driver stand, and so does whether the station is in service. -/
theorem Linked.of_working (hl : t.link.working = s.link.working)
    (hs : t.station = .unconfigured → s.station = .unconfigured) (hp : t.peers = s.peers)
    (hn : s.now ≤ t.now) : Linked s t := by
  simp only [Link.working, Link.mk.injEq] at hl
  obtain ⟨hrx, -, hreq, hchanges, hcurrent, htx, hdrive, -, -, -, -, -, -, -, hmute⟩ := hl
  refine ⟨fun ⟨h1, h2, h3, h4, h5, h6, h7⟩ => ?_, fun h => ?_, staleOk_of_peers hp hn⟩
  · simp only [LinkOk, hrx, hreq, hchanges, hcurrent, htx, hmute]
    exact ⟨h1, h2, h3, h4, h5, h6, h7 ∘ hs⟩
  · simpa only [DriverOk, htx, hdrive] using h

theorem Linked.of_only (h : Only ps s t)
    (hps : .station ∉ ps ∧ .peers ∉ ps ∧ .now ∉ ps ∧ .link ∉ ps) : Linked s t :=
  .of_working (congrArg _ (h .link hps.2.2.2)) (Eq.trans (h .station hps.1).symm) (h .peers hps.2.1)
    (h .now hps.2.2.1).ge

/-- An operation on the Link Controller alone. -/
theorem linked_modLink {f : Link → Link} (hq : LinkOk s → LinkOk (modLink f s))
    (hd : DriverOk s → DriverOk (modLink f s)) : Linked s (modLink f s) :=
  ⟨hq, hd, staleOk_of_peers rfl le_rfl⟩

/-- An operation outside the cellar link. -/
theorem Asks.linked (h : Asks s t) : Linked s t := by
  have hfix : ∀ v, Asks s v → v.link = t.link → Linked v t := fun v hv hl =>
    .of_working (by rw [hl]) (fun hs => by rw [hv.station, ← h.station]; exact hs)
      (h.peers.trans hv.peers.symm) (by rw [hv.now, h.now])
  rcases h.link with hl | hl
  · exact hfix s (.refl s) hl.symm
  · have hreq : Linked s (requestStatus s) := by
      refine ⟨linkOk_requestStatus, fun hd => ?_,
        staleOk_of_peers (requestStatus_only s .peers (by simp))
          (le_of_eq (requestStatus_only s .now (by simp)).symm)⟩
      by_cases hclosed : s.link.mute = true ∨ s.station = .unconfigured
      · rwa [requestStatus_closed hclosed]
      · obtain ⟨hm, hs⟩ := not_or.mp hclosed
        unfold DriverOk
        rw [requestStatus_link (by simpa using hm) hs, chooseFrame_requested rfl]
        exact hd
    exact hreq.trans (hfix _ (asks_requestStatus s) hl.symm)

theorem linked_setLine (i : LineNo) (l : Line) : Linked s (s.setLine i l) := (asks_setLine i l).linked

theorem linked_raise (f : AttnFlag) : Linked s (raise f s) := (asks_raise f).linked

theorem linked_powered {f : State → State} (h : Linked s (f s)) : Linked s (powered s f) :=
  .ite (.refl s) h

/-- After a reset nothing waits, nothing is sent and no peer is known (R121, R133). -/
theorem linked_resetAct (s : State) : Linked s (resetAct s) := by
  refine ⟨fun _ => ?_, fun _ f hf => ?_, fun _ n p hp => ?_⟩
  · simp [LinkOk, resetAct, State.reset, Link.reset]
  · exact absurd hf (by simp [resetAct, State.reset, Link.reset])
  · exact absurd hp (by simp [State.peer, resetAct, State.reset])

end linked

end Sys2Proof.Machine

/-! SUPPORT. What the events of the cellar link make of its queue, its attempt and its driver (R104, R110, R113
to R118). -/

namespace Sys2Proof.Machine

/-! ## The end of an attempt -/

section attempt

variable {s : State} {k : Link} {f : TxFrame} {c : Current}

@[simp] theorem chooseFrame_tx (k : Link) : k.chooseFrame.tx = k.tx := by
  cases hc : k.current with
  | some c => rw [chooseFrame_some hc]
  | none => rw [chooseFrame_none hc]

@[simp] theorem chooseFrame_drive (k : Link) : k.chooseFrame.drive = k.drive := by
  cases hc : k.current with
  | some c => rw [chooseFrame_some hc]
  | none => rw [chooseFrame_none hc]

@[simp] theorem chooseFrame_mute (k : Link) : k.chooseFrame.mute = k.mute := by
  cases hc : k.current with
  | some c => rw [chooseFrame_some hc]
  | none => rw [chooseFrame_none hc]

/-- Only a CHANGE leaves a list (R110). -/
theorem leaveList_eq (kind : CurrentKind) (k : Link) : leaveList kind k =
    { k with changes := if kind = .change then k.changes.tail else k.changes } := by
  unfold leaveList
  split <;> rfl

/-- What a frame that is over leaves of the link, before the next frame is chosen (R100, R110, R114). -/
def attemptOver (f : TxFrame) (n : Nat) (kind : CurrentKind) (k : Link) : Link :=
  { leaveList kind (release f n k) with current := none }

/-- A collision before the eighth: the frame stays current (R114, R116). -/
theorem collide_again (htx : s.link.tx = some f) (hc : s.link.current = some c) (hk : c.k + 1 ≠ 8) :
    collide s = { s with link := { release f (f.sent + 1) s.link with
      collisions := satInc max16 s.link.collisions, current := some ⟨c.kind, c.k + 1⟩ } } := by
  simp only [collide, htx, hc, hk, if_false]
  rfl

/-- The eighth collision: the frame is dropped, and the next one chosen (R116). -/
theorem collide_dropped (htx : s.link.tx = some f) (hc : s.link.current = some c) (hk : c.k + 1 = 8) :
    collide s = { s with
      attn := if c.kind = .change then s.attn.set .linkDrop else s.attn,
      link := ({ attemptOver f (f.sent + 1) c.kind s.link with
        collisions := satInc max16 s.link.collisions,
        drops := satInc max16 s.link.drops } : Link).chooseFrame } := by
  simp only [collide, htx, hc, hk, if_true, dropFrame, attemptOver, leaveList_eq]
  split <;> rfl

/-- A success: the next frame is chosen, once that of a STATUS has been reported (R117). -/
theorem succeed_eq (htx : s.link.tx = some f) (hc : s.link.current = some c) :
    succeed s = selectFrame (if c.kind = .status
      then statusSuccess { s with link := attemptOver f f.chars.length c.kind s.link }
      else { s with link := attemptOver f f.chars.length c.kind s.link }) := by
  simp only [succeed, htx, hc]
  rfl

theorem collide_none (h : s.link.tx = none ∨ s.link.current = none) : collide s = s := by
  unfold collide
  split
  next htx hc => simp [htx, hc] at h
  next => rfl

theorem succeed_none (h : s.link.tx = none ∨ s.link.current = none) : succeed s = s := by
  unfold succeed
  split
  next htx hc => simp [htx, hc] at h
  next => rfl

/-- A frame that is over leaves the queue open (R110). -/
theorem Link.Open.over (h : k.Open) (f : TxFrame) (n : Nat) (kind : CurrentKind) :
    (attemptOver f n kind k).Open := by
  have hroom := h.room
  rw [attemptOver, leaveList_eq]
  refine ⟨?_, by simp, by simp, by simp, h.mute⟩
  simp only [release_changes]
  split
  · rw [List.length_tail]
    omega
  · exact hroom

/-- Where nothing is sent the driver has nothing to keep. -/
theorem driverOk_idle (h : s.link.tx = none) : DriverOk s := fun f hf => by simp [h] at hf

/-- A collision keeps the queue: the frame is current again, or dropped (R114, R116). -/
theorem linked_collide (s : State) : Linked s (collide s) := by
  by_cases hnone : s.link.tx = none ∨ s.link.current = none
  · rw [collide_none hnone]
    exact .refl s
  obtain ⟨htx, hc⟩ := not_or.mp hnone
  obtain ⟨f, htx⟩ := Option.ne_none_iff_exists'.mp htx
  obtain ⟨c, hc⟩ := Option.ne_none_iff_exists'.mp hc
  by_cases hk : c.k + 1 = 8
  · rw [collide_dropped htx hc hk]
    refine ⟨fun h => ?_, fun _ => driverOk_idle ?_, staleOk_of_peers rfl le_rfl⟩
    · obtain ⟨hopen, hs⟩ := sending_open h (by simp [htx])
      obtain ⟨hroom, hcurrent, hreadback, hattempt, hmute⟩ := hopen.over f (f.sent + 1) c.kind
      exact linkOk_selectFrame (s := { s with link := { attemptOver f (f.sent + 1) c.kind s.link with
        collisions := satInc max16 s.link.collisions, drops := satInc max16 s.link.drops } })
        ⟨hroom, hcurrent, hreadback, hattempt, hmute⟩ hs
    · rw [chooseFrame_tx, attemptOver, leaveList_eq]
      rfl
  · rw [collide_again htx hc hk]
    refine ⟨fun h => ?_, fun _ => driverOk_idle rfl, staleOk_of_peers rfl le_rfl⟩
    obtain ⟨⟨hroom, hcurrent, -, -, hmute⟩, hs⟩ := sending_open h (by simp [htx])
    obtain ⟨hle, hkind⟩ := hcurrent c hc
    refine Link.Open.linkOk ⟨hroom, fun d hd => ?_, by simp, by simp, hmute⟩ hs (by simp)
    obtain rfl := Option.some.inj hd
    exact ⟨by simp only; omega, hkind⟩

/-- A success keeps the queue: the next frame is chosen, whatever the claim has asked for (R117, R178). -/
theorem linked_succeed (s : State) : Linked s (succeed s) := by
  by_cases hnone : s.link.tx = none ∨ s.link.current = none
  · rw [succeed_none hnone]
    exact .refl s
  obtain ⟨htx, hc⟩ := not_or.mp hnone
  obtain ⟨f, htx⟩ := Option.ne_none_iff_exists'.mp htx
  obtain ⟨c, hc⟩ := Option.ne_none_iff_exists'.mp hc
  obtain ⟨u, hu⟩ : ∃ u : State, u = { s with link := attemptOver f f.chars.length c.kind s.link } := ⟨_, rfl⟩
  obtain ⟨v, hv⟩ : ∃ v, v = if c.kind = .status then statusSuccess u else u := ⟨_, rfl⟩
  have huv : Asks u v := by rw [hv]; exact .ite (asks_statusSuccess u) (.refl u)
  have hlink : u.link = attemptOver f f.chars.length c.kind s.link := by rw [hu]
  rw [succeed_eq htx hc, ← hu, ← hv]
  refine ⟨fun h => ?_, fun _ => ?_, fun h => ?_⟩
  · obtain ⟨hopen, hs⟩ := sending_open h (by simp [htx])
    have hus : u.station ≠ .unconfigured := by rw [hu]; exact hs
    exact linkOk_selectFrame (huv.open hus (by rw [hlink]; exact hopen.over _ _ _))
      (by rw [huv.station]; exact hus)
  · have hidle : DriverOk u := driverOk_idle (by rw [hlink, attemptOver, leaveList_eq]; rfl)
    simpa only [DriverOk, selectFrame, chooseFrame_tx, chooseFrame_drive] using huv.linked.driver hidle
  · have hus : StaleOk u := by rw [hu]; exact h
    exact staleOk_of_peers (selectFrame_only v .peers (by simp))
      (le_of_eq (selectFrame_only v .now (by simp)).symm) (huv.linked.stale hus)

end attempt

/-! ## The start of an attempt -/

theorem chars_length_pos (f : LinkFrame) : 0 < f.chars.length := by simp [LinkFrame.chars]

/-- An attempt of a current frame begins, with its driver (R100, R113). -/
theorem linked_startAttempt {s : State} (hm : s.link.mute = false) (hs : s.station ≠ .unconfigured) :
    Linked s (startAttempt s) := by
  unfold startAttempt
  split
  next c hc htx =>
    split
    next f _ =>
      refine linked_modLink (fun h => ?_) fun _ g hg => ?_
      · have ho := Link.open_of_ok h hm
        exact Link.Open.linkOk ⟨ho.room, ho.current, iff_of_true rfl rfl, fun _ => by simp [hc], hm⟩ hs
          (by simp [hc])
      · obtain rfl := Option.some.inj hg
        refine ⟨chars_length_pos f, ?_⟩
        simp [charEnd, bitTime, Nat.mul_comm]
    next => exact .refl s
  next => exact .refl s

/-- A character read back lets the attempt go on, or ends it (R114, R117). -/
theorem linked_readBack {s : State} {t : TxFrame} (ht : s.link.tx = some t) (v : Byte) (err : Bool) :
    Linked s (readBack t v err s) := by
  unfold readBack
  split
  · exact linked_collide s
  · split
    · exact linked_succeed s
    next hlast =>
      refine linked_modLink (fun ⟨hroom, hcurrent, hchosen, hreadback, hattempt, hmute, hdown⟩ => ?_)
        fun h f hf => ?_
      · refine ⟨hroom, hcurrent, hchosen, ?_, fun _ => hattempt (by simp [ht]), fun hm => ?_, hdown⟩
        · rw [modLink_link, hreadback, ht]
          simp
        · have hnone := (hmute hm).2
          simp [ht] at hnone
      · obtain ⟨hsent, hdrive⟩ := h t ht
        obtain rfl := Option.some.inj hf
        exact ⟨by simp only; omega, hdrive⟩

/-! ## Frames that arrive -/

section arrival

variable {s : State}

/-- The assembly goes on while it listens or is in DISCARD (R104). -/
theorem linked_assembly {r : RxState} (hs : s.link.rx ≠ .readback ∧ s.link.rx ≠ .off) (hr : r ≠ .readback) :
    Linked s (modLink (fun k => { k with rx := r }) s) :=
  linked_modLink (fun ⟨hroom, hcurrent, hchosen, hreadback, hattempt, hmute, hdown⟩ =>
    ⟨hroom, hcurrent, hchosen, iff_of_false hr fun htx => hs.1 (hreadback.mpr htx), hattempt, hmute,
      fun hd => absurd (hdown hd).1 hs.2⟩) id

theorem linked_discardFrame (c : RxCheck) (hs : s.link.rx ≠ .readback ∧ s.link.rx ≠ .off) :
    Linked s (discardFrame c s) := by
  have hrx : Linked s (modLink (fun k => { k with rx := if c = .gap then .hunt else .discard }) s) :=
    linked_assembly hs (by split <;> simp)
  exact hrx.trans (.of_working (by cases c <;> rfl) id rfl le_rfl)

/-- A frame of own number flushes the queue; nothing is being sent while the assembly is in HUNT (R118). -/
theorem linked_duplicateStation (h : s.link.rx = .hunt) : Linked s (duplicateStation s) := by
  have hflush : Linked s (modLink (fun k => { k with
      mute := true, statusReq := false, changes := [], current := none,
      drops := sat max16 (k.drops + k.changes.length) }) s) := by
    refine linked_modLink (fun ⟨_, _, _, hreadback, _, _, hdown⟩ => ?_) id
    have htx : s.link.tx = none := by simpa [h] using hreadback
    exact ⟨by simp, by simp, by simp, hreadback, by simp [htx], fun _ => ⟨rfl, htx⟩,
      fun hd => by simp [h] at hdown; exact absurd hd hdown⟩
  unfold duplicateStation
  simp only
  exact .after (linked_raise _) (.ite (.refl s) (.ite hflush (.after (linked_raise _) hflush)))

/-- A record is stored FRESH, or goes STALE once it has reached 3000 ms (R125, R127). -/
theorem linked_setPeer {p : PeerRec} (n : Fin 32) (hp : p.fresh = false → p.lastAt + 1500000 ≤ s.now) :
    Linked s (s.setPeer n (some p)) := by
  refine ⟨id, id, fun h m q hq hf => ?_⟩
  by_cases hm : m = n
  · subst hm
    rw [peer_setPeer_same] at hq
    obtain rfl := Option.some.inj hq
    exact hp hf
  · rw [peer_setPeer_ne s _ hm] at hq
    exact h m q hq hf

theorem linked_applyStatus (n : Fin 32) (b : StatusBody) : Linked s (applyStatus n b s) :=
  .after (asks_evaluateClaim _).linked (.after (asks_lowTests _ _ _).linked
    (.after (linked_setPeer n (by simp)) (asks_processEntries s _ _).linked))

theorem linked_handFrame (f : LinkFrame) (h : s.link.rx = .hunt) : Linked s (handFrame f s) := by
  unfold handFrame
  split
  · exact linked_duplicateStation h
  · split
    · exact (asks_takeChange s _).linked
    · split
      · exact linked_applyStatus _ _
      · exact .refl s

theorem linked_arriveFrame (f : LinkFrame) (hs : s.link.rx ≠ .readback ∧ s.link.rx ≠ .off) :
    Linked s (arriveFrame f s) :=
  .ite (.after (linked_handFrame f rfl) (linked_assembly hs (by simp))) (linked_discardFrame _ hs)

theorem RxState.listening_working {r : RxState} (h : r.listening = true) : r ≠ .readback ∧ r ≠ .off := by
  cases r <;> simp_all [RxState.listening]

theorem linked_takeChar (v : Byte) (err : Bool) : Linked s (takeChar v err s) := by
  unfold takeChar
  split
  · exact .refl s
  · exact .refl s
  next h =>
    have hs : s.link.rx ≠ .readback ∧ s.link.rx ≠ .off := by simp [h]
    exact .ite (linked_discardFrame _ hs) (.ite (linked_assembly hs (by simp)) (linked_discardFrame _ hs))
  next h =>
    have hs : s.link.rx ≠ .readback ∧ s.link.rx ≠ .off := by simp [h]
    split
    · exact linked_assembly hs (by simp)
    · exact linked_discardFrame _ hs
    · exact linked_arriveFrame _ hs
  · split
    next ht => exact linked_readBack ht v err
    next => exact .refl s

end arrival

end Sys2Proof.Machine

/-! SUPPORT. Every command and event keeps the transmit queue, the driver and the STALE records consistent, and
the statement (R100, R104, R110, R114, R118, R121, R127, R132). -/

namespace Sys2Proof.Machine

/-! ## The commands -/

section commands

variable (s : State)

/-- CONFIGURE puts the link to work: the assembly goes to DISCARD and a STATUS is requested (R121, R192). -/
theorem linked_acceptImage (img : List Byte) (hs : s.station = .unconfigured) :
    Linked s (acceptImage img s) := by
  obtain ⟨u, hu⟩ : ∃ u, u = modLink (fun k => { k with
      rx := .discard, idleFrom := some s.now, announceFrom := some s.now })
    { s with config := some (loadCfg img), station := .stopped, seconds := 0, secondFrom := some s.now } :=
    ⟨_, rfl⟩
  have hworks : Linked s u := by
    rw [hu]
    refine ⟨fun ⟨hroom, hcurrent, hchosen, hreadback, hattempt, hmute, hdown⟩ => ?_, id, id⟩
    have htx : ¬ s.link.tx.isSome = true := fun htx => by
      have hrx := hreadback.mpr htx
      simp [(hdown hs).1] at hrx
    exact ⟨hroom, hcurrent, hchosen, iff_of_false (by simp) htx, hattempt, hmute, fun hd => by simp at hd⟩
  have hcool : ∀ v k, Linked v { v with cool := k } := fun v k => .of_only (cool_only v k) (by simp)
  have e : acceptImage img s = glycolFrame { requestStatus u with
      cool := { (requestStatus u).cool with sampleFrom := some s.now } } := by rw [hu]; rfl
  rw [e]
  exact .after (hcool _ _) (.after (hcool _ _) (.after (asks_requestStatus u).linked hworks))

theorem linked_configureBody (img : List Byte) : Linked s (configureBody img s).1 := by
  unfold configureBody
  split
  · exact .refl s
  next hs =>
    split
    · exact .refl s
    · exact linked_acceptImage s img (not_not.mp hs)

theorem linked_startBody : Linked s (startBody s).1 := by
  unfold startBody
  split
  · exact .refl s
  next hs =>
    have hup : Linked s { s with station := .running } := .of_working rfl (by simp) rfl le_rfl
    have hlines : ∀ u, Linked u (overLines startLine allLines u) := fun u =>
      .of_only (overLines_only (fun i v => (startLine_spec i v).2.2) _ u) (by simp)
    exact .after (asks_requestStatus _).linked (.after (hlines _) hup)

theorem linked_stopBody : Linked s (stopBody s).1 := by
  unfold stopBody
  split
  · exact .refl s
  · have hdown : Linked s { s with station := .stopped } := .of_working rfl (by simp) rfl le_rfl
    have htower : Linked s (closeTower s) := .after
      (asks_overLines (fun i v => asks_endIfPouring i v .stopped) allLines _).linked (.after
        (asks_overLines (fun i v => asks_refuseEntry i v .off) (s.starts.map StartEntry.line) _).linked hdown)
    have hlines : ∀ u, Asks u (overLines stopLine allLines u) := fun u =>
      .of_only (overLines_only (fun i v => (stopLine_spec i v).2.2) _ u) (by simp)
    have hleave : leaveRunning s = overLines stopLine allLines (abortRun (closeTower s)) := rfl
    simp only [accept, hleave]
    exact htower.trans (Asks.linked (.after (asks_requestStatus _) (.after (hlines _) (asks_abortRun _))))

/-- A command that reads (R30, R97, R120, R132). -/
theorem linked_readings (line source station : Byte) : Linked s (readLineBody line s).1 ∧
    Linked s (readSourceBody source s).1 ∧ Linked s (readPeerBody station s).1 ∧
    Linked s (readLinkBody s).1 := by
  unfold readLineBody readSourceBody readPeerBody readLinkBody
  refine ⟨?_, ?_, ?_, ?_⟩
  · split
    · exact .refl s
    · split <;> exact .refl s
  · split
    · exact .refl s
    · split <;> exact .refl s
  · split
    · exact .refl s
    · split
      · exact .refl s
      · split <;> exact .refl s
  · split
    · exact .refl s
    · exact .of_working rfl id rfl le_rfl

theorem asks_takeRecordBody : Asks s (takeRecordBody s).1 := by
  unfold takeRecordBody
  split
  · exact .refl s
  · split
    · exact .refl s
    · exact .after (asks_serve _) ⟨rfl, rfl, rfl, .inl rfl⟩

theorem asks_orderBody (line : Byte) (tag volume : BitVec 16) :
    Asks s (orderBody line tag volume s).1 := by
  unfold orderBody
  split
  · exact .refl s
  · split
    · exact .refl s
    · split
      · exact .refl s
      · split
        · exact .refl s
        · exact asks_setLine _ _

theorem asks_cancelBody (line : Byte) (tag : BitVec 16) : Asks s (cancelBody line tag s).1 := by
  unfold cancelBody
  split
  · exact .refl s
  · split
    · exact .refl s
    · split
      · exact asks_setLine _ _
      · split
        · split
          · exact asks_endPour _ s _
          · exact .refl s
        · exact .refl s

theorem asks_pourStopBody (line : Byte) : Asks s (pourStopBody line s).1 := by
  unfold pourStopBody
  split
  · exact .refl s
  · split
    · exact .refl s
    · split
      · exact asks_endPour _ s _
      · exact asks_refuseEntry _ s _
      · exact asks_setLine _ _
      · exact .refl s

theorem asks_unlockBody (line : Byte) : Asks s (unlockBody line s).1 := by
  unfold unlockBody
  split
  · exact .refl s
  · split
    · exact .refl s
    · split
      · exact .refl s
      · exact .of_only (clearLock_spec _ s).2.2 (by simp)

theorem asks_calibrateBody (line : Byte) (va : BitVec 32) : Asks s (calibrateBody line va s).1 := by
  unfold calibrateBody
  split
  · exact .refl s
  · split
    · exact .refl s
    · split
      · exact .refl s
      · split
        · exact .refl s
        · simp only
          split
          · exact .refl s
          · exact ⟨rfl, rfl, rfl, .inl rfl⟩

/-- SOURCE-CHANGE finds room for its CHANGE (R89, R110). -/
theorem linked_sourceChangeBody (source : Byte) (full : BitVec 32) :
    Linked s (sourceChangeBody source full s).1 := by
  by_cases hs : s.station = .unconfigured
  · simp only [sourceChangeBody, hs, if_true]
    exact .refl s
  by_cases hb : 16 ≤ source.toNat
  · simp only [sourceChangeBody, hs, if_false, sourceOfByte_none hb]
    exact .refl s
  obtain ⟨x, hx⟩ : ∃ x : SourceNo, source.toNat = x.val := ⟨⟨_, Nat.not_le.mp hb⟩, rfl⟩
  rw [sourceChangeBody_eq hs hx]
  split
  · exact .refl s
  next hm =>
    split
    · exact .refl s
    next hroom =>
      simp only [accept]
      have hgen := asks_newGeneration x s ((s.source x).gen + 1) full.toNat false
      obtain ⟨u, hu⟩ : ∃ u, u = newGeneration x ((s.source x).gen + 1) full.toNat false s := ⟨_, rfl⟩
      have hlink : u.link = s.link := by
        rw [hu]
        exact newGeneration_only x _ _ _ s .link (by simp)
      rw [← hu] at hgen
      refine ⟨fun h => ?_, fun h => ?_, fun h => ?_⟩
      · have ho := Link.open_of_ok h (by simpa using hm)
        rw [changedSource, ← hu]
        refine linkOk_selectFrame ?_ (by rw [modLink_station, hgen.station]; exact hs)
        rw [modLink_link, hlink]
        refine ⟨?_, fun c hc => ⟨(ho.current c hc).1, by simp⟩, ho.readback, ho.attempt, ho.mute⟩
        rw [List.length_append, List.length_singleton]
        omega
      · obtain ⟨-, hchanged, -⟩ := changedSource_spec source full x s
        simpa only [DriverOk, hchanged] using h
      · obtain ⟨-, -, honly⟩ := changedSource_spec source full x s
        exact staleOk_of_peers (honly .peers (by simp)) (le_of_eq (honly .now (by simp)).symm) h

/-- CLEAR-MUTE finds an empty queue (R118, R119). -/
theorem linked_clearMuteBody : Linked s (clearMuteBody s).1 := by
  unfold clearMuteBody
  split
  · exact .refl s
  next hs =>
    have hmuted : s.station ≠ .unconfigured ∧ s.link.mute = true := by simpa using hs
    refine .after (asks_requestStatus _).linked (linked_modLink
      (fun ⟨hroom, hcurrent, hchosen, hreadback, hattempt, _, _⟩ => ?_) id)
    exact ⟨hroom, hcurrent, hchosen, hreadback, hattempt, fun hm => by simp at hm,
      fun hd => absurd hd hmuted.1⟩

theorem asks_cleanStartBody (entry lines : Byte) : Asks s (cleanStartBody entry lines s).1 := by
  have haccept : Asks s (acceptRun entry.toNat lines s) := by
    have hreserve : ∀ u, Asks u (overLines reserveLine (linesOf lines) u) := fun u =>
      .of_only (overLines_only (fun i v => (reserveLine_frame i v).2) _ u) (by simp)
    exact .after (asks_checkPrepared _) (.after (asks_modClean _) (.after (hreserve _)
      (.after (asks_modClean _) ⟨rfl, rfl, rfl, .inl rfl⟩)))
  unfold cleanStartBody
  split
  · exact .refl s
  · split
    · exact .refl s
    · split
      · exact .refl s
      · split
        · exact .refl s
        · split
          · exact .refl s
          · exact haccept

theorem asks_cleanAbortBody : Asks s (cleanAbortBody s).1 := by
  unfold cleanAbortBody
  split
  · exact .refl s
  · exact asks_abortRun s

end commands

/-! ## Every command and event -/

section events

variable {s t : State}

/-- A command period marks an overrun, resets, or executes its command (R188, R189, R193). -/
theorem linked_command {body : State → State × Answer} (h : ∀ s, Linked s (body s).1) :
    Linked s (command body s) := by
  have hbegin : Linked s (beginCommand s) := .of_working rfl id rfl le_rfl
  have hprepare : ∀ a u, Linked u (prepare a u) := fun _ _ => .of_working rfl id rfl le_rfl
  exact linked_powered (.ite (.of_working rfl id rfl le_rfl) (.ite (linked_resetAct s)
    ((hbegin.trans (h _)).trans (hprepare _ _))))

theorem linked_readOut (n : Nat) : Linked s (readOut n s) := by
  have hport : ∀ (u : State) (p : Port), Linked u { u with port := p } := fun _ _ =>
    .of_working rfl id rfl le_rfl
  unfold readOut
  exact .after (hport _ _) (.ite (linked_resetAct s) (hport s _))

/-- An event whose outcome is a next state keeps what its operation keeps. -/
theorem linked_event {f : State → State}
    (h : (Host.Outcome.next (powered s f) : Host.Outcome State Fault Refusal) = .next t)
    (hf : Linked s (f s)) : Linked s t :=
  Host.Outcome.next.inj h ▸ linked_powered hf

theorem linked_body {body : State → State × Answer}
    (h : (Host.Outcome.next (command body s) : Host.Outcome State Fault Refusal) = .next t)
    (hb : ∀ s, Linked s (body s).1) : Linked s t :=
  Host.Outcome.next.inj h ▸ linked_command hb

theorem linked_execPeerExpiry (station : Byte) (h : execPeerExpiry station s = .next t) :
    Linked s t := by
  refine linked_event h ?_
  split
  · exact .refl s
  · split
    · exact .refl s
    next p _ =>
      split
      next hexp =>
        have hold : p.fresh = true ∧ p.lastAt + staleTime ≤ s.now := by
          simpa [PeerRec.expired] using hexp
        exact .after (asks_evaluateClaim _).linked (.after (asks_staleRegrant _).linked
          (linked_setPeer _ fun _ => hold.2))
      next => exact .refl s

theorem linked_execPourCompletion (i : LineNo) (h : execPourCompletion i s = .next t) : Linked s t := by
  refine linked_event h ?_
  split
  · exact (asks_complete i s _).linked
  · exact .refl s

theorem linked_execValveHoldDrive (i : LineNo) (h : execValveHoldDrive i s = .next t) : Linked s t := by
  refine linked_event h ?_
  split
  · exact linked_setLine i _
  · exact .refl s

theorem linked_execIdleGapExpiry (h : execIdleGapExpiry s = .next t) : Linked s t := by
  refine linked_event h ?_
  split
  next hrx => exact linked_assembly (by simp [hrx]) (by simp)
  next hrx => exact linked_discardFrame _ (by simp [hrx])
  · exact .refl s

theorem linked_execResponseReady (h : execResponseReady s = .next t) : Linked s t := by
  refine linked_event h ?_
  split
  · exact .of_working rfl id rfl le_rfl
  · exact .refl s

theorem linked_listening {u : State} (h : s.link.rx.listening = true → Linked s u) :
    Linked s (if s.link.rx.listening then u else s) := by
  split
  next hl => exact h hl
  next => exact .refl s

theorem linked_execAccessWaitExpiry (h : execAccessWaitExpiry s = .next t) : Linked s t := by
  refine linked_event h ?_
  split
  · exact .refl s
  next hclosed =>
    have hopen : s.link.mute = false ∧ s.station ≠ .unconfigured := by simpa using hclosed
    exact linked_startAttempt hopen.1 hopen.2

/-- Every command and event keeps the queue, the driver and the STALE records consistent. -/
theorem linked_exec (c : Instr) (h : exec c s = .next t) : Linked s t := by
  cases c with
  | configure image => exact linked_body h fun s => linked_configureBody s image
  | start => exact linked_body h linked_startBody
  | stop => exact linked_body h linked_stopBody
  | reset => exact linked_body h fun _ => .of_working rfl id rfl le_rfl
  | readStatus => exact linked_body h fun s => .refl s
  | readLine line => exact linked_body h fun s => (linked_readings s line 0 0).1
  | readSource source => exact linked_body h fun s => (linked_readings s 0 source 0).2.1
  | readPeer station => exact linked_body h fun s => (linked_readings s 0 0 station).2.2.1
  | readLink => exact linked_body h fun s => (linked_readings s 0 0 0).2.2.2
  | readAttention => exact linked_body h fun _ => .of_working rfl id rfl le_rfl
  | takeRecord => exact linked_body h fun s => (asks_takeRecordBody s).linked
  | order line tag volume => exact linked_body h fun s => (asks_orderBody s line tag volume).linked
  | cancel line tag => exact linked_body h fun s => (asks_cancelBody s line tag).linked
  | pourStop line => exact linked_body h fun s => (asks_pourStopBody s line).linked
  | unlock line => exact linked_body h fun s => (asks_unlockBody s line).linked
  | calibrate line va => exact linked_body h fun s => (asks_calibrateBody s line va).linked
  | sourceChange source full => exact linked_body h fun s => linked_sourceChangeBody s source full
  | cleanStart entry lines => exact linked_body h fun s => (asks_cleanStartBody s entry lines).linked
  | cleanAbort => exact linked_body h fun s => (asks_cleanAbortBody s).linked
  | clearMute => exact linked_body h linked_clearMuteBody
  | commandNotExecuted => exact linked_body h fun s => .refl s
  | readPeriod bytes => exact linked_event h (.ite (.refl s) (linked_readOut bytes))
  | responseReady => exact linked_execResponseReady h
  | resetResponseTimeout => exact linked_event h (.ite (linked_resetAct s) (.refl s))
  | rstnAssert =>
    exact Host.Outcome.next.inj h ▸ (linked_resetAct s).trans (.of_working rfl id rfl le_rfl)
  | rstnRelease => exact Host.Outcome.next.inj h ▸ linked_resetAct s
  | portReadyAfterReset => exact linked_event h (.ite (.of_working rfl id rfl le_rfl) (.refl s))
  | handlePress i =>
    exact linked_event h
      (.ite (.after (asks_pressHandle i _).linked (linked_setLine i _)) (linked_setLine i _))
  | handleRelease i =>
    exact linked_event h
      (.ite (.after (asks_releaseHandle i _).linked (linked_setLine i _)) (linked_setLine i _))
  | keyPress i k =>
    exact linked_event h
      (.ite (.after (asks_pressKey i _ k).linked (linked_setLine i _)) (linked_setLine i _))
  | keyEntryExpiry i => exact linked_event h (.ite (asks_refuseEntry i s _).linked (.refl s))
  | refuseFlashEnd i =>
    exact linked_event h
      (.ite (.after (.of_only (relamp_only i _) (by simp)) (linked_setLine i _)) (.refl s))
  | valveHoldDrive i => exact linked_execValveHoldDrive i h
  | meterPulse i => exact linked_event h (.after (asks_takePulse i _).linked (linked_setLine i _))
  | noFlowExpiry i => exact linked_event h (asks_endIfPouring i s _).linked
  | pourTimerExpiry i => exact linked_event h (asks_endIfPouring i s _).linked
  | pourCompletion i => exact linked_execPourCompletion i h
  | stationSecondsTick => exact linked_event h (.ite (.refl s) (.of_working rfl id rfl le_rfl))
  | validFrameArrival frame =>
    exact linked_event h (linked_listening fun hl =>
      linked_arriveFrame frame (RxState.listening_working hl))
  | frameDiscarded check =>
    exact linked_event h (linked_listening fun hl =>
      linked_discardFrame check (RxState.listening_working hl))
  | idleGapExpiry => exact linked_execIdleGapExpiry h
  | announcementTimerExpiry =>
    exact linked_event h
      (.ite (.refl s) (.after (asks_requestStatus _).linked (.of_working rfl id rfl le_rfl)))
  | accessWaitExpiry => exact linked_execAccessWaitExpiry h
  | collision => exact linked_event h (linked_collide s)
  | transmitSuccess => exact linked_event h (linked_succeed s)
  | peerExpiry station => exact linked_execPeerExpiry station h
  | sensorSample code => exact linked_event h (.ite (.refl s) (asks_sample code s).linked)
  | glycolFrameStart => exact linked_event h (.ite (.refl s) (.of_working rfl id rfl le_rfl))
  | glycolOnTimeEnd => exact linked_event h (.of_working rfl id rfl le_rfl)
  | conditionPinChange pin level =>
    exact linked_event h
      (.ite (.refl s) (Asks.linked (.after (asks_afterFlagChange _) (asks_modClean _))))
  | flowTimeout =>
    exact linked_event h (Asks.linked (asks_stepEvent s fun _ =>
      .ite (.after (asks_afterFlagChange _) (asks_modClean _)) (.refl s)))
  | dwellExpiry => exact linked_event h (asks_stepEvent s (asks_dwellExpires s)).linked
  | limitExpiry => exact linked_event h (asks_stepEvent s (asks_limitExpires s)).linked
  | runLimitExpiry =>
    exact linked_event h (asks_stepEvent s fun _ => asks_endRunning s .failed).linked
  | characterStart => exact linked_event h (.ite (.refl s) (.of_working rfl id rfl le_rfl))
  | characterTaken value err => exact linked_event h (linked_takeChar value err)
  | lampBlinkPhase i => exact linked_event h (.ite (linked_setLine i _) (.refl s))

/-- The block's own clock moves time and the receiver (R101). -/
theorem linked_tick (s : State) : Linked s (tick s) := by
  have hfr := tick_only s
  refine .of_working ?_ (fun h => ?_) (hfr .peers (by simp)) (by rw [tick_now]; omega)
  · cases hr : s.rstnLow with
    | true => rw [tick_reset hr]
    | false => rw [tick_link hr]; split <;> rfl
  · rwa [← show (tick s).station = s.station from hfr .station (by simp)]

theorem linked_takeDue (c : Instr) (s : State) : Linked s (takeDue c s) := by
  cases c with
  | characterStart => exact .of_working rfl id rfl le_rfl
  | characterTaken value err => exact .of_working rfl id rfl le_rfl
  | _ => exact .refl s

theorem linked_step (h : step s = .next t) : Linked s t := by
  cases hp : s.pending with
  | cons c rest =>
    simp only [step, hp] at h
    exact .after (linked_exec c h) (.of_working rfl id rfl le_rfl)
  | nil =>
    simp only [step, hp, idleStep] at h
    cases hd : due s with
    | some c =>
      rw [hd] at h
      exact .after (linked_exec c h) (linked_takeDue c s)
    | none =>
      rw [hd] at h
      exact Host.Outcome.next.inj h ▸ linked_tick s

end events

/-- Settles O56: the operations outside the link at most ask for a STATUS, and each event of the link keeps its
queue. -/
theorem linkKept : Obligations.LinkKept := fun _ _ h =>
  ⟨(linked_step h).queue, (linked_step h).driver, (linked_step h).stale⟩

end Sys2Proof.Machine

/-! SUPPORT. The waits of retries and their statement (R113, R115). -/

namespace Sys2Proof.Machine

theorem accessWait_retry (a : Nat) {k : Nat} (h : k ≠ 0) :
    accessWait a k = 30 + 22 * (((a - 1) + 5 * k) % 32) := if_neg h

/-- Settles O52: at one collision count the station numbers 1 to 32 leave 32 different remainders. -/
theorem retryWaits : Obligations.RetryWaits := by
  refine ⟨fun a b k ha ha' hb hb' hab hk hk' => ?_, fun a => rfl, by decide⟩
  have hk0 : k ≠ 0 := by omega
  have hdiffer : ((a - 1) + 5 * k) % 32 ≠ ((b - 1) + 5 * k) % 32 := by omega
  rw [accessWait_retry a hk0, accessWait_retry b hk0]
  omega

end Sys2Proof.Machine

/-! SUPPORT. CLEAR-MUTE, a frame of own number, and the start of an attempt with its bits on the pair, and their
statements (R96, R100, R107 to R109, R111, R113, R114, R118, R119). -/

namespace Sys2Proof.Machine

/-! ## MUTE -/

theorem clearMuteBody_refused {s : State} (h : s.station = .unconfigured ∨ s.link.mute = false) :
    clearMuteBody s = (s, .badState, []) := by
  rw [clearMuteBody, if_pos (by simpa using h)]
  rfl

/-- In MUTE the queue is empty (R118), so a STATUS asked for as MUTE ends is current at once (R119). -/
theorem clearMuteBody_muted {s : State} (hs : s.station ≠ .unconfigured) (hm : s.link.mute = true)
    (h : LinkOk s) : clearMuteBody s = ({ s with link := { s.link with
      mute := false, changes := [], statusReq := true, current := some ⟨.status, 0⟩ } }, .ok, []) := by
  obtain ⟨-, -, hchosen, -, -, hmute, -⟩ := h
  have hnone := (hmute hm).1
  have hempty := (hchosen hnone).1
  have hbody : clearMuteBody s =
      accept [] (requestStatus (modLink (fun k => { k with mute := false }) s)) := by
    simp [clearMuteBody, hs, hm]
  rw [hbody, requestStatus_eq rfl (by exact hs), chooseFrame_requested rfl]
  simp [accept, modLink, hnone, hempty]

/-- Settles O24: the tests of R119, and the queue that MUTE has left empty. -/
theorem clearMuteCommand : Obligations.ClearMuteCommand := by
  intro s h
  exact ⟨fun hbad => congrArg Host.Outcome.next
      (command_unchanged h (clearMuteBody_refused (s := beginCommand s) hbad)),
    fun hs hm hok => congrArg Host.Outcome.next
      (command_of_body h (clearMuteBody_muted (s := beginCommand s) hs hm hok) rfl rfl)⟩

theorem duplicateStation_muted {s : State} (hm : s.link.mute = true) :
    duplicateStation s = raise .mute s := by
  simp only [duplicateStation, hm, if_true]

/-- The station enters MUTE, its queue flushed (R118). -/
theorem duplicateStation_enters {s : State} (hm : s.link.mute = false) :
    duplicateStation s = { s with
      attn := (if s.link.changes = [] then s.attn else s.attn.set .linkDrop).set .mute,
      link := { s.link with
        mute := true, statusReq := false, changes := [], current := none,
        drops := min (s.link.drops + s.link.changes.length) 65535 } } := by
  cases hc : s.link.changes <;>
    simp [duplicateStation, hm, hc, raise, modLink, sat, max16]

/-- Settles O38: the frame is taken as one of own number, in MUTE or out of it. -/
theorem ownNumberMutes : Obligations.OwnNumberMutes := by
  intro f s hr hwf hown hl
  have hexec : exec (.validFrameArrival f) s = .next (duplicateStation (hunting s)) := by
    rw [exec_validFrameArrival hr hwf hl, handFrame, if_pos (show f.station.toNat = (hunting s).cfg.station from hown)]
  exact ⟨fun hm => by rw [hexec, duplicateStation_muted (s := hunting s) hm]; rfl,
    fun hm => by rw [hexec, duplicateStation_enters (s := hunting s) hm]; rfl⟩

/-! ## The bits of a character on the pair -/

section bits

variable {s : State}

/-- The bits of characters sent back to back, eleven a character (R100, R102). -/
theorem getD_flatMap_charBits {chars : List Byte} {n bit : Nat} {c : Byte} (hc : chars[n]? = some c)
    (hbit : bit < 11) : (chars.flatMap charBits).getD (11 * n + bit) true = (charBits c).getD bit true := by
  induction chars generalizing n with
  | nil => simp at hc
  | cons a rest ih =>
    rw [List.flatMap_cons]
    cases n with
    | zero =>
      obtain rfl := Option.some.inj hc
      rw [Nat.mul_zero, Nat.zero_add, List.getD_append _ _ _ _ (by rw [charBits_length]; exact hbit)]
    | succ n =>
      rw [List.getD_append_right _ _ _ _ (by rw [charBits_length]; omega), charBits_length,
        show 11 * (n + 1) + bit - 11 = 11 * n + bit by omega]
      exact ih hc

/-- Even parity: the bit is a one where the data bits hold an odd number of ones (R100). -/
theorem oddOnes_dataBits (c : Byte) :
    oddOnes (dataBits c) = decide (((List.range 8).filter c.getLsbD).length % 2 = 1) := by
  rw [Bool.eq_iff_iff, oddOnes_iff, decide_eq_true_eq, dataBits, List.filter_map, List.length_map]
  rfl

/-- A character bit by bit (R100): start bit, data bits from the least significant, parity bit, stop bit. -/
theorem charBits_getD (c : Byte) {bit : Nat} (h : bit < 11) : (charBits c).getD bit true =
    if bit = 0 then false
    else if bit ≤ 8 then c.getLsbD (bit - 1)
    else if bit = 9 then decide (((List.range 8).filter c.getLsbD).length % 2 = 1)
    else true := by
  rw [← oddOnes_dataBits]
  interval_cases bit <;> rfl

/-- The driver puts a bit of a character on the pair while its time lasts (R100). -/
theorem ownLevel_bit {d : Drive} {n bit : Nat} {c : Byte} (hr : s.rstnLow = false)
    (hmissing : missingChar s = false) (hd : s.link.drive = some d) (hc : d.chars[n]? = some c)
    (hbit : bit < 11) (hfrom : d.began + 44 * n + 4 * bit ≤ s.now)
    (hto : s.now < d.began + 44 * n + 4 * (bit + 1)) (hends : s.now < d.ends) :
    ownLevel s = some ((charBits c).getD bit true) := by
  have hindex : (s.now - d.began) / bitTime = 11 * n + bit := by
    unfold bitTime
    omega
  have hon : ¬ (s.rstnLow || missingChar s || decide (d.ends ≤ s.now)) = true := by
    simpa [hr, hmissing] using hends
  simp only [ownLevel, hd, if_neg hon, Drive.level, hindex, getD_flatMap_charBits hc hbit]

/-- The driver is off once its last stop bit has ended (R100). -/
theorem ownLevel_ended (h : ∀ d, s.link.drive = some d → d.ends ≤ s.now) : ownLevel s = none := by
  unfold ownLevel
  split
  next d hd => simp [h d hd]
  next => rfl

end bits

/-! ## The start of an attempt -/

/-- The clean state announced, by the run state (R173). -/
theorem announcedClean_eq (s : State) : announcedClean s = match s.clean.runState with
    | .claiming => .claiming
    | .running => .active
    | _ => .none := by
  unfold announcedClean
  cases s.clean.runState <;> rfl

/-- The claim age announced, 0 outside CLAIMING and RUNNING (R108). -/
theorem announcedAge_eq (s : State) :
    (if announcedClean s = .none then 0 else BitVec.ofNat 8 s.clean.age) = match s.clean.runState with
      | .claiming | .running => BitVec.ofNat 8 s.clean.age
      | _ => 0 := by
  rw [announcedClean_eq]
  cases s.clean.runState <;> rfl

/-- A frame begins on the pair (R100, R113). -/
theorem startAttempt_eq {s : State} {c : Current} {f : LinkFrame} (htx : s.link.tx = none)
    (hc : s.link.current = some c) (hf : attemptFrame c.kind s = some f) :
    startAttempt s = { s with link := { s.link with
      rx := .readback, idleFrom := some (s.now + 44),
      tx := some { chars := f.chars, sent := 0, began := s.now },
      drive := some { chars := f.chars, began := s.now, ends := s.now + 44 * f.chars.length },
      statusReq := if c.kind = .status then false else s.link.statusReq } } := by
  simp only [startAttempt, htx, hc, hf, modLink, charEnd, bitTime, Nat.mul_comm]

theorem exec_accessWaitExpiry {s : State} (hr : s.rstnLow = false) (hs : s.station ≠ .unconfigured)
    (hm : s.link.mute = false) : exec .accessWaitExpiry s = .next (startAttempt s) := by
  have h : powered s (fun s => if s.link.mute || s.station == .unconfigured then s else startAttempt s) =
      startAttempt s := by
    simp [powered, hr, hm, hs]
  exact congrArg Host.Outcome.next h

/-- Settles O42: the request of the timer, the frame that an attempt begins, and its bits by their places in
the characters sent. -/
theorem announceAndAttempt : Obligations.AnnounceAndAttempt := by
  intro s hr hs number status sending missing
  have hmissing : missing ↔ missingChar s = true := missingChar_iff.symm
  refine ⟨?_, fun k hm htx hc => ?_, fun k b rest hm htx hc hch => ?_, fun hm => ?_,
    fun d n bit c hd hc hbit hmiss hfrom hto hends => ?_, fun hoff => ?_⟩
  · obtain ⟨u, hu⟩ : ∃ u, u = modLink (fun k => { k with announceFrom := some s.now }) s := ⟨_, rfl⟩
    obtain ⟨hreq, honly⟩ := requestStatus_spec u (by rw [hu]; exact hs)
    have hexec : exec .announcementTimerExpiry s = .next (requestStatus u) := by
      rw [hu]
      refine congrArg Host.Outcome.next (?_ : powered s _ = _)
      rw [powered, hr, if_neg Bool.false_ne_true, if_neg hs]
    refine ⟨_, hexec, ?_, ?_⟩
    · rw [hu] at hreq ⊢
      exact hreq
    · rw [hu] at honly ⊢
      exact (modLink_only _ s).trans honly
  · have hf : attemptFrame .status s = some ⟨number, .status status⟩ := by
      rw [attemptFrame, buildStatus, announcedAge_eq, announcedClean_eq]
      rfl
    rw [exec_accessWaitExpiry hr hs hm, startAttempt_eq htx hc hf]
    rfl
  · have hf : attemptFrame .change s = some ⟨number, .change b⟩ := by
      simp only [attemptFrame, hch, number]
      rfl
    rw [exec_accessWaitExpiry hr hs hm, startAttempt_eq htx hc hf]
    rfl
  · refine congrArg Host.Outcome.next (?_ : powered s _ = s)
    simp [powered, hm]
  · have hlevel := ownLevel_bit hr (by simpa [hmissing] using hmiss) hd hc hbit hfrom hto hends
    rw [charBits_getD c hbit] at hlevel
    exact ⟨by rw [driverOn, hlevel]; rfl, hlevel⟩
  · have hlevel : ownLevel s = none := hoff.elim (fun h => ownLevel_missing s (hmissing.mp h)) ownLevel_ended
    exact ⟨by rw [driverOn, hlevel]; rfl, hlevel⟩

end Sys2Proof.Machine

/-! SUPPORT. A step entered, and a run begun, with the list served where cool-off clears the starved flag (R13,
R147, R162, R163, R171, R178, R179). -/

namespace Sys2Proof.Machine

/-! ## The walk in two states that differ on lines aside -/

theorem Only.symm {ps : List Part} {s t : State} (h : Only ps s t) : Only ps t s := by
  intro p hp
  have hsame := h p hp
  cases p <;> simp_all [Part.same]

/-- Two states differ in nothing that the walk reads or writes, the lines aside without a start pending: in
those lines, the link and the sequencer at most. -/
structure Apart (aside : List LineNo) (s t : State) : Prop where
  parts : Only [.lines, .link, .clean] s t
  lines : ∀ i, i ∉ aside → t.line i = s.line i

section apart

variable {aside : List LineNo} {s t : State} {i : LineNo}

theorem Apart.now (h : Apart aside s t) : t.now = s.now := h.parts .now (by simp)
theorem Apart.config (h : Apart aside s t) : t.config = s.config := h.parts .config (by simp)
theorem Apart.sources (h : Apart aside s t) : t.sources = s.sources := h.parts .sources (by simp)
theorem Apart.cool (h : Apart aside s t) : t.cool = s.cool := h.parts .cool (by simp)
theorem Apart.journal (h : Apart aside s t) : t.journal = s.journal := h.parts .journal (by simp)
theorem Apart.pours (h : Apart aside s t) : t.pours = s.pours := h.parts .pours (by simp)
theorem Apart.starts (h : Apart aside s t) : t.starts = s.starts := h.parts .starts (by simp)
theorem Apart.seconds (h : Apart aside s t) : t.seconds = s.seconds := (h.parts .seconds (by simp)).1

/-- The same line written in both states, its lamp following. -/
theorem Apart.writes (h : Apart aside s t) (i : LineNo) (l : Line) :
    Apart aside (relamp i (s.setLine i l)) (relamp i (t.setLine i l)) := by
  have hframe : ∀ u : State, Only [.lines, .link, .clean] u (relamp i (u.setLine i l)) := fun u =>
    (relamp_setLine i u l).2.2.mono (by simp)
  refine ⟨(hframe s).symm.trans (h.parts.trans (hframe t)), fun j hj => ?_⟩
  by_cases hji : j = i
  · subst hji
    have hlamp : lampPattern (t.setLine j l) j = lampPattern (s.setLine j l) j :=
      lampPattern_congr h.config h.sources (by rw [setLine_cool, setLine_cool, h.cool])
        (by simp only [line_setLine_same]) (by simp only [line_setLine_same])
    simp only [relamp, line_setLine_same, hlamp, setLine_now, h.now]
  · rw [(relamp_setLine i t l).2.1 j hji, (relamp_setLine i s l).2.1 j hji, h.lines j hj]

theorem Apart.removeStart (h : Apart aside s t) (i : LineNo) :
    Apart aside (removeStart i s) (removeStart i t) := by
  refine ⟨fun p hp => ?_, h.lines⟩
  have hsame := h.parts p hp
  cases p <;> simp_all [Part.same, Machine.removeStart]

theorem Apart.refuseEntry (h : Apart aside s t) (hi : i ∉ aside) (st : LineState) :
    Apart aside (refuseEntry i st s) (refuseEntry i st t) := by
  have hline : (Machine.removeStart i t).line i = (Machine.removeStart i s).line i := h.lines i hi
  have hnow : (Machine.removeStart i t).now = (Machine.removeStart i s).now := h.now
  simp only [Machine.refuseEntry, hline, hnow]
  exact (h.removeStart i).writes i _

theorem Apart.beginPour (h : Apart aside s t) (hi : i ∉ aside) (kind : StartKind) :
    Apart aside (beginPour i kind s) (beginPour i kind t) := by
  obtain ⟨a, ha⟩ : ∃ a : State, a = { s with
    journal := { s.journal with reserved := s.journal.reserved + 1 }, pours := s.pours + 1 } := ⟨_, rfl⟩
  obtain ⟨b, hb⟩ : ∃ b : State, b = { t with
    journal := { t.journal with reserved := t.journal.reserved + 1 }, pours := t.pours + 1 } := ⟨_, rfl⟩
  have hadmitted : Apart aside a b := by
    refine ⟨fun p hp => ?_, fun j hj => by rw [ha, hb]; exact h.lines j hj⟩
    have hsame := h.parts p hp
    cases p <;> simp_all [Part.same]
  have hline := h.lines i hi
  have hpour : newPour t i kind = newPour s i kind := by
    simp only [newPour, lineCfg_congr h.config, hline, h.seconds, h.now]
  have hordered : t.ordered i = s.ordered i := by simp only [State.ordered, lineCfg_congr h.config]
  unfold Machine.beginPour
  simp only
  rw [hpour, hline, hordered, ← ha, ← hb, h.now]
  exact hadmitted.writes i _

/-- The walk serves lines that are not aside alike (R14). -/
theorem Apart.serveList {es : List StartEntry} (hes : ∀ e ∈ es, e.line ∉ aside)
    (h : Apart aside s t) : Apart aside (serveList es s) (serveList es t) := by
  induction es generalizing s t with
  | nil => exact h
  | cons e rest ih =>
    have he : e.line ∉ aside := hes e (by simp)
    have hrest : ∀ f ∈ rest, f.line ∉ aside := fun f hf => hes f (by simp [hf])
    have hun : unstartable t e.line = unstartable s e.line := by
      simp only [unstartable, sourceEmpty_congr h.config (fun x => by rw [source_congr h.sources]),
        State.ordered, lineCfg_congr h.config, h.lines e.line he]
    have hcfg : t.cfg = s.cfg := by simp only [State.cfg, h.config]
    have hhold : stationHold t = stationHold s := by
      simp only [stationHold, paceExceeded, State.freeSpace, h.cool, h.journal, h.pours, hcfg]
    simp only [Machine.serveList, hun, hhold]
    split
    · exact ih hrest (h.refuseEntry he .ready)
    · split
      · exact h
      · exact ih hrest ((h.removeStart e.line).beginPour he e.kind)

end apart

/-! ## A step entered -/

section step

variable {s : State}

theorem valveWith_eq (on : Bool) (now : Nat) (v : Valve) :
    valveWith on now v = if on then v.opened now else .closed := by
  cases on <;> cases v <;> rfl

/-- The valves of the selected lines follow FAUCETS (R163). -/
theorem applyFaucets_line (on : Bool) (s : State) :
    (∀ i ∈ s.selected,
      (applyFaucets on s).line i = { s.line i with valve := valveWith on s.now (s.line i).valve }) ∧
    ∀ i, i ∉ s.selected → (applyFaucets on s).line i = s.line i := by
  have hf : ∀ i (u : State), OtherLines i u
      (setValve i (if on then (u.line i).valve.opened u.now else .closed) u) := fun i u => setLine_others u i _
  have hps : ∀ i (u : State), Only [.lines] u
      (setValve i (if on then (u.line i).valve.opened u.now else .closed) u) := fun i u => setLine_only u i _
  refine ⟨fun i hi => ?_, fun i hi => overLines_others hf _ s i hi⟩
  obtain ⟨u, hu, hline, hend, -⟩ := overLines_at hf hps (selected_nodup s) hi s
  rw [applyFaucets, hend, setValve, line_setLine_same, hline, show u.now = s.now from hu .now (by simp),
    valveWith_eq]

/-- Cool-off follows the COOL-OFF output, and the list is served when it clears the starved flag (R147). -/
theorem coolOff_served (on : Bool) (g : State) {t : State}
    (ht : t = if on then beginCoolOff g else endCoolOff g) :
    t.cool = coolWith on g.cool ∧ t = coolServed g t := by
  have hcool : t.cool = coolWith on g.cool := by
    rw [ht]
    cases on with
    | false => rfl
    | true =>
      simp only [beginCoolOff, coolWith, if_true, Bool.not_true, if_false, Bool.false_eq_true]
      split
      · rfl
      · split
        · exact serve_only _ .cool (by simp)
        · rfl
  refine ⟨hcool, ?_⟩
  rw [coolServed, hcool, ht]
  cases on with
  | false => simp [endCoolOff, coolWith, servedIf]
  | true =>
    cases hoff : g.cool.coolOff <;> cases hstarved : g.cool.starved <;>
      simp [beginCoolOff, coolWith, servedIf, hoff, hstarved]

/-- A line without a start pending is not served (R14). -/
theorem coolServed_line {i : LineNo} (hi : i ∉ s.starts.map StartEntry.line) (t : State) :
    (coolServed s t).line i = s.line i := by
  unfold coolServed servedIf
  split
  · exact serveList_others hi { s with cool := t.cool }
  · rfl

/-- The list is served alike in two states that differ on lines aside. -/
theorem Apart.coolServed {aside : List LineNo} {s u : State} (h : Apart aside s u)
    (hes : ∀ e ∈ s.starts, e.line ∉ aside) (t : State) :
    Apart aside (coolServed s t) (coolServed u t) := by
  have hcooled : Apart aside { s with cool := t.cool } { u with cool := t.cool } := by
    refine ⟨fun p hp => ?_, h.lines⟩
    have hsame := h.parts p hp
    cases p <;> simp_all [Part.same]
  have hserve : serve { u with cool := t.cool } = Machine.serveList s.starts { u with cool := t.cool } :=
    congrArg (Machine.serveList · { u with cool := t.cool }) h.starts
  simp only [Machine.coolServed, servedIf, h.cool, hserve]
  split
  · exact hcooled.serveList hes
  · exact hcooled

/-- Lines, list, count of pours and journal of two states that differ on lines aside. -/
theorem Apart.servedAs {aside : List LineNo} {v t : State} (h : Apart aside v t) : ServedAs aside v t :=
  ⟨h.lines, h.starts, h.pours, h.journal⟩

/-- A step entered while no start is pending on a selected line (R162, R163). -/
theorem enterStep_enters (n runFrom : Nat) (hes : ∀ e ∈ s.starts, e.line ∉ s.selected) :
    EntersStep n runFrom s (enterStep n runFrom s) := by
  obtain ⟨u, hu⟩ : ∃ u, u = modClean (fun c => { c with out := (s.stepAt n).outputs })
    (modClean (fun c => { c with
      progress := some { step := n, phase := .dwell, stepFrom := s.now, runFrom },
      stepCounts := Vector.replicate 8 0,
      flags := { c.flags with volume := (s.stepAt n).pulses = 0 } }) s) := ⟨_, rfl⟩
  obtain ⟨g, hg⟩ : ∃ g, g = applyFaucets (s.stepAt n).outputs.faucets u := ⟨_, rfl⟩
  obtain ⟨t, ht⟩ : ∃ t, t = enterStep n runFrom s := ⟨_, rfl⟩
  have hsu : Only [.clean] s u := by
    rw [hu]; exact (modClean_only _ s).trans (modClean_only _ _)
  have hsel : u.selected = s.selected := by rw [hu]; rfl
  have hlines : ∀ i, u.line i = s.line i := line_congr (hsu .lines (by simp))
  have hnow : u.now = s.now := hsu .now (by simp)
  obtain ⟨hin, hout⟩ := applyFaucets_line (s.stepAt n).outputs.faucets u
  rw [hsel, ← hg, hnow] at hin
  rw [hsel, ← hg] at hout
  have hug : Only [.lines] u g := by rw [hg]; exact applyFaucets_only _ u
  have hapart : Apart s.selected s g := ⟨(hsu.mono (by simp)).trans (hug.mono (by simp)),
    fun i hi => (hout i hi).trans (hlines i)⟩
  obtain ⟨hcool, hserved⟩ := coolOff_served (s.stepAt n).outputs.coolOff g (t := t)
    (by rw [ht, hg, hu]; rfl)
  obtain ⟨hclean, honly⟩ := enterStep_spec n runFrom s
  rw [← ht] at hclean honly ⊢
  refine ⟨hclean, by rw [hcool, hapart.cool], fun i hi => ?_, ?_, honly.mono (by simp)⟩
  · have hpending : i ∉ g.starts.map StartEntry.line := by
      rw [hapart.starts]
      rintro hmem
      obtain ⟨e, he, rfl⟩ := List.mem_map.mp hmem
      exact hes e he hi
    rw [hserved, coolServed_line hpending, hin i hi, hlines]
  · have hlike := (hapart.coolServed hes t).servedAs
    rwa [← hserved] at hlike

end step

/-! ## A run begun -/

/-- What a run holds while it claims (R27, R176): its lines are RESERVED, with no start pending. -/
structure ClaimHeld (j : Job) (s : State) : Prop where
  job : s.clean.job = some j
  reserved : ∀ i ∈ linesOf j.lines, (s.line i).state = .reserved
  starts : ∀ e ∈ s.starts, e.line ∉ linesOf j.lines
  station : s.station ≠ .unconfigured

theorem StationOk.claimHeld {s : State} (h : StationOk s) (hr : s.clean.runState = .claiming) :
    ∃ j, ClaimHeld j s := by
  obtain ⟨-, -, ⟨-, hwaiting⟩, ⟨hidle, -, hlines⟩, -, -, hshut⟩ := h
  obtain ⟨j, hj⟩ := Option.ne_none_iff_exists'.mp fun hnone => by
    have := hidle.mpr hnone
    simp [hr] at this
  have hsel : s.selected = linesOf j.lines := by simp only [State.selected, hj]
  have hreserved : ∀ i ∈ linesOf j.lines, (s.line i).state = .reserved := fun i hi => by
    obtain ⟨-, -, hclaim, -⟩ := hlines i
    exact hclaim hr (by rw [hsel]; exact hi)
  refine ⟨j, hj, hreserved, fun e he hi => ?_, fun hs => ?_⟩
  · have hw := (hwaiting e.line).mpr (List.mem_map_of_mem he)
    simp [hreserved e.line hi] at hw
  · have hidle' := (hshut (by simp [hs])).1
    simp [hr] at hidle'

section run

variable {j : Job} {w : State}

/-- The state in which a run enters its first step (R171, R179). -/
def runEntered (j : Job) (w : State) : State :=
  modClean (fun c => { c with
      beerOut := Vector.replicate 8 0, flowFrom := none, flags := { c.flags with flow := false } })
    (requestStatus (overLines activate (linesOf j.lines)
      (modClean (fun c => { c with runState := .running }) w)))

theorem enterRunning_eq (hj : w.clean.job = some j) : enterRunning w =
    enterStep (if j.entry = 1 then w.cfg.entry1 else w.cfg.entry2) w.now (runEntered j w) := by
  simp only [enterRunning, hj]
  rfl

/-- The lines of the run become CLEANING, and the rest of the tower stands (R27, R179). -/
theorem runEntered_spec (h : ClaimHeld j w) :
    (runEntered j w).clean = { w.clean with
      runState := .running, beerOut := Vector.replicate 8 0, flowFrom := none,
      flags := { w.clean.flags with flow := false } } ∧
    StatusRequested w (runEntered j w) ∧
    (∀ i ∈ linesOf j.lines, LineBecomes (runEntered j w) i { w.line i with state := .cleaning }) ∧
    Apart (linesOf j.lines) w (runEntered j w) := by
  obtain ⟨a, ha⟩ : ∃ a, a = modClean (fun c => { c with runState := .running }) w := ⟨_, rfl⟩
  obtain ⟨b, hb⟩ : ∃ b, b = overLines activate (linesOf j.lines) a := ⟨_, rfl⟩
  obtain ⟨d, hd⟩ : ∃ d, d = runEntered j w := ⟨_, rfl⟩
  have hwa : Only [.clean] w a := by rw [ha]; exact modClean_only _ w
  have hab : Only [.lines] a b := by rw [hb]; exact overLines_only (fun i u => (activate_frame i u).2) _ a
  have hclean : b.clean = { w.clean with runState := .running } := by
    rw [show b.clean = a.clean from hab .clean (by simp), ha]
    rfl
  have hstation : b.station ≠ .unconfigured := by
    rw [show b.station = a.station from hab .station (by simp),
      show a.station = w.station from hwa .station (by simp)]
    exact h.station
  obtain ⟨hreq, hbc⟩ := requestStatus_spec b hstation
  have hcd : Only [.clean] (requestStatus b) d := by
    rw [hd, runEntered, ← ha, ← hb]
    exact modClean_only _ _
  have hbd : Only [.link, .clean] b d := (hbc.mono (by simp)).trans (hcd.mono (by simp))
  have hlines : ∀ i, d.line i = b.line i := line_congr (hbd .lines (by simp))
  have hstart : ∀ i, a.line i = w.line i := line_congr (hwa .lines (by simp))
  rw [← hd]
  refine ⟨?_, ?_, fun i hi => ?_, ?_, fun i hi => ?_⟩
  · rw [hd, runEntered, ← ha, ← hb, modClean_clean, show (requestStatus b).clean = b.clean from
      hbc .clean (by simp), hclean]
  · exact (hreq.of_link ((hab .link (by simp)).trans (hwa .link (by simp)))).of_only hcd (by simp)
  · have hbecomes : LineBecomes b i { w.line i with state := .cleaning } := by
      rw [hb]
      refine overLines_becomes (fun i u => (activate_frame i u).1) (fun i u => (activate_frame i u).2)
        (by simp) (linesOf_nodup _) hi fun u _ hline => ?_
      have hset := (setState_spec i .cleaning u).1
      rw [hline, hstart] at hset
      rwa [activate, if_pos (by rw [hline, hstart]; exact h.reserved i hi)]
    exact hbecomes.congr (hlines i) hbd (by simp)
  · exact ((hwa.mono (by simp)).trans (hab.mono (by simp))).trans (hbd.mono (by simp))
  · rw [hlines, hb, overLines_others (fun i u => (activate_frame i u).1) _ a i hi, hstart]

/-- The run begins (R171, R179), whatever the link held when the claim was evaluated. -/
theorem enterRunning_begins (h : ClaimHeld j w) {v : State} (hwv : Only [.link] w v)
    (hreq : StatusRequested v (enterRunning w)) : RunBegins j v (enterRunning w) := by
  obtain ⟨hclean, -, hlines, hapart⟩ := runEntered_spec h
  rw [enterRunning_eq h.job] at hreq ⊢
  obtain ⟨d, hd⟩ : ∃ d, d = runEntered j w := ⟨_, rfl⟩
  rw [← hd] at hclean hlines hapart hreq ⊢
  have hsel : d.selected = linesOf j.lines := by simp only [State.selected, hclean, h.job]
  have hvd : Apart (linesOf j.lines) v d := ⟨(hwv.symm.mono (by simp)).trans hapart.parts,
    fun i hi => (hapart.lines i hi).trans (line_congr (hwv .lines (by simp)) i).symm⟩
  have hcfg : v.cfg = w.cfg := by simp only [State.cfg, show v.config = w.config from hwv .config (by simp)]
  have hcfg' : d.cfg = v.cfg := by simp only [State.cfg, hvd.config]
  have hnow : v.now = w.now := hwv .now (by simp)
  have hvclean : v.clean = w.clean := hwv .clean (by simp)
  obtain ⟨n, hn⟩ : ∃ n, n = if j.entry = 1 then v.cfg.entry1 else v.cfg.entry2 := ⟨_, rfl⟩
  rw [← hcfg, ← hn, ← hnow] at hreq ⊢
  have hstep : d.stepAt n = v.stepAt n := by simp only [State.stepAt, hcfg']
  have hes : ∀ e ∈ v.starts, e.line ∉ linesOf j.lines := by
    rw [show v.starts = w.starts from hwv .starts (by simp)]
    exact h.starts
  obtain ⟨htclean, htcool, htlines, htserved, htonly⟩ := enterStep_enters (s := d) n v.now
    (by rw [hvd.starts, hsel]; exact hes)
  obtain ⟨t, ht⟩ : ∃ t, t = enterStep n v.now d := ⟨_, rfl⟩
  rw [← ht] at htclean htcool htlines htserved htonly hreq ⊢
  rw [hstep, hvd.cool] at htcool
  rw [hsel, hstep, hvd.now] at htlines
  rw [hsel] at htserved
  unfold RunBegins
  simp only
  rw [← hn]
  refine ⟨?_, hreq, htcool, fun i hi => ?_, ?_, (hvd.parts.mono (by simp)).trans (htonly.mono (by simp))⟩
  · rw [htclean, hclean, hvclean]
    simp only [enteredClean, hstep, hvd.now]
  · obtain ⟨hsans, hlamp⟩ := hlines i hi
    rw [← line_congr (hwv .lines (by simp)) i] at hsans
    have hvalve : (d.line i).valve = (v.line i).valve := (congrArg Line.valve hsans :)
    refine ⟨?_, ?_⟩
    · rw [htlines i hi, hvalve]
      exact congrArg (fun l : Line => { l with
        valve := valveWith (v.stepAt n).outputs.faucets v.now (v.line i).valve }) hsans
    · have hwarm : t.cool.warmHold = d.cool.warmHold := by
        rw [htcool, hvd.cool, coolWith]
        split
        · rfl
        · split <;> rfl
      rw [htlines i hi]
      exact hlamp.trans (lampPattern_congr (htonly .config (by simp)) (htonly .sources (by simp)) hwarm
        (by rw [htlines i hi]) (by rw [htlines i hi])).symm
  · obtain ⟨hother, hstarts, hpours, hjournal⟩ := (hvd.coolServed hes t).servedAs
    obtain ⟨hother', hstarts', hpours', hjournal'⟩ := htserved
    exact ⟨fun i hi => (hother' i hi).trans (hother i hi), hstarts'.trans hstarts,
      hpours'.trans hpours, hjournal'.trans hjournal⟩

theorem enterRunning_requests (h : ClaimHeld j w) : StatusRequested w (enterRunning w) := by
  rw [enterRunning_eq h.job]
  exact (runEntered_spec h).2.1.of_only (enterStep_spec _ _ _).2 (by simp)

end run

end Sys2Proof.Machine

/-! SUPPORT. The end of an attempt, the claim that a success evaluates, and their statement (R110, R114, R116,
R117, R177, R178). -/

namespace Sys2Proof.Machine

/-! ## The claim evaluated -/

theorem statusRequested_iff {w t : State} (h : w.link.mute = false) :
    StatusRequested w t ↔ t.link = ({ w.link with statusReq := true } : Link).chooseFrame := by
  rw [StatusRequested, h, if_neg Bool.false_ne_true]
  exact iff_of_eq (congrArg (t.link = ·)
    (chooseFrame_requested (k := { w.link with statusReq := true }) rfl).symm)

/-- A frame chosen before or after a request for a STATUS is the same frame (R110). -/
theorem chooseFrame_request (k : Link) : ({ k.chooseFrame with statusReq := true } : Link).chooseFrame =
    ({ k with statusReq := true } : Link).chooseFrame.chooseFrame := by
  cases hc : k.current with
  | some c => simp only [Link.chooseFrame, hc]
  | none =>
    cases hch : k.changes with
    | nil => cases hreq : k.statusReq <;> simp [Link.chooseFrame, hc, hch, hreq]
    | cons b rest => simp [Link.chooseFrame, hc, hch]

theorem StatusRequested.choose {w t : State} (h : StatusRequested w t) :
    StatusRequested (selectFrame w) (selectFrame t) := by
  cases hm : w.link.mute with
  | true =>
    rw [StatusRequested, hm, if_pos rfl] at h
    rw [StatusRequested, selectFrame, selectFrame, chooseFrame_mute, hm, if_pos rfl, h]
  | false =>
    rw [statusRequested_iff hm] at h
    rw [statusRequested_iff (by rw [selectFrame, chooseFrame_mute, hm]), selectFrame, selectFrame,
      chooseFrame_request, h]

section claim

variable {j : Job} {w : State}

/-- The claim of a run is evaluated, and the next frame chosen after that (R110, R178). -/
theorem claimEvaluated_select (h : ClaimHeld j w) (hr : w.clean.runState = .claiming) :
    ClaimEvaluated (selectFrame w) (selectFrame (evaluateClaim w)) := by
  obtain ⟨a, ha⟩ : ∃ a, a = modClean (fun c => { c with ahead := aheadCount w }) w := ⟨_, rfl⟩
  have hheld : ClaimHeld j a := by
    rw [ha]
    exact ⟨h.job, h.reserved, h.starts, h.station⟩
  have heval : evaluateClaim w = if 2 ≤ w.clean.age ∧ aheadCount w < w.cfg.cleanSlots ∧
      w.link.mute = false then enterRunning a else a := by
    rw [ha]
    simp [evaluateClaim, hr, and_assoc]
  refine ⟨fun hne => absurd hr hne, fun _ => ?_⟩
  change if 2 ≤ w.clean.age ∧ aheadCount w < w.cfg.cleanSlots ∧ w.link.chooseFrame.mute = false then _ else _
  rw [heval, chooseFrame_mute]
  by_cases hbegins : 2 ≤ w.clean.age ∧ aheadCount w < w.cfg.cleanSlots ∧ w.link.mute = false
  · have hreq := enterRunning_requests hheld
    have hcurrent : (selectFrame (enterRunning a)) = enterRunning a := by
      have hlink := hreq
      unfold StatusRequested at hlink
      rw [show a.link.mute = false by rw [ha]; exact hbegins.2.2, if_neg Bool.false_ne_true] at hlink
      have hsome : ∃ c, (enterRunning a).link.current = some c := by
        rw [hlink]
        cases a.link.current <;> exact ⟨_, rfl⟩
      obtain ⟨c, hc⟩ := hsome
      rw [selectFrame, chooseFrame_some hc]
    have hchosen := hreq.choose
    rw [if_pos hbegins, if_pos hbegins, hcurrent]
    rw [hcurrent] at hchosen
    refine ⟨j, h.job, ?_⟩
    rw [ha] at hchosen ⊢
    exact enterRunning_begins (by rw [← ha]; exact hheld) (selectFrame_only _) hchosen
  · rw [if_neg hbegins, if_neg hbegins, ha]
    rfl

end claim

/-! ## The outcomes of an attempt -/

section outcome

variable {s : State} {f : TxFrame} {c : Current}

theorem release_eq (f : TxFrame) (n : Nat) (k : Link) : release f n k = { k with
    tx := none, rx := .discard, idleFrom := some (max (k.idleFrom.getD 0) (f.began + 44 * n)),
    drive := k.drive.map fun d => { d with ends := f.began + 44 * n } } := by
  simp only [release, idleAfter_max, charEnd, bitTime, Nat.mul_comm]

theorem exec_collision (hr : s.rstnLow = false) : exec .collision s = .next (collide s) :=
  congrArg Host.Outcome.next (show powered s collide = collide s by simp [powered, hr])

theorem exec_transmitSuccess (hr : s.rstnLow = false) : exec .transmitSuccess s = .next (succeed s) :=
  congrArg Host.Outcome.next (show powered s succeed = succeed s by simp [powered, hr])

theorem statusSuccess_idle (h : s.clean.runState ≠ .claiming) : statusSuccess s = s := if_neg h

/-- Settles O43: the frame that a collision leaves current or drops, and the claim evaluated before the frame
after a success is chosen. -/
theorem attemptEnds : Obligations.AttemptEnds := by
  intro s f c hr htx hc up left next ended
  have hover : ∀ n, (attemptOver f n c.kind s.link).chooseFrame =
      { ended n with changes := left, current := next } := fun n => by
    rw [chooseFrame_none rfl, attemptOver, leaveList_eq, release_eq]
  refine ⟨fun hk => ?_, fun hk => ?_, fun hidle => ?_, fun hkind hclaim hok => ?_⟩
  · rw [exec_collision hr, collide_again htx hc hk, release_eq]
    rfl
  · rw [exec_collision hr, collide_dropped htx hc hk, chooseFrame_none rfl, attemptOver, leaveList_eq, release_eq]
    rfl
  · rw [exec_transmitSuccess hr, succeed_eq htx hc]
    have hreport : (if c.kind = .status
        then statusSuccess { s with link := attemptOver f f.chars.length c.kind s.link }
        else { s with link := attemptOver f f.chars.length c.kind s.link }) =
        { s with link := attemptOver f f.chars.length c.kind s.link } := by
      split
      next hstatus =>
        exact statusSuccess_idle (hidle.resolve_left (by simp [hstatus]))
      next => rfl
    rw [hreport, selectFrame, hover]
  · obtain ⟨w, hw⟩ : ∃ w, w = modClean (fun c => { c with age := satInc max8 c.age })
      { s with link := attemptOver f f.chars.length c.kind s.link } := ⟨_, rfl⟩
    obtain ⟨j, hj⟩ := hok.claimHeld hclaim
    have hheld : ClaimHeld j w := by
      rw [hw]
      exact ⟨hj.job, hj.reserved, hj.starts, hj.station⟩
    have hsucceed : succeed s = selectFrame (evaluateClaim w) := by
      rw [succeed_eq htx hc, if_pos hkind, statusSuccess, if_pos hclaim, hw]
    have hbefore : selectFrame w = { s with
        link := { ended f.chars.length with changes := left, current := next },
        clean := { s.clean with age := satInc max8 s.clean.age } } := by
      rw [hw, ← hover]
      rfl
    have hevaluated := claimEvaluated_select hheld (by rw [hw]; exact hclaim)
    rw [hbefore] at hevaluated
    exact ⟨_, by rw [exec_transmitSuccess hr, hsucceed], hevaluated⟩

end outcome

end Sys2Proof.Machine

/-! SUPPORT. The receive assembly character by character, the content that a payload must have, and the characters
of a frame read back into it (R101 to R107, R196). -/

namespace Sys2Proof

/-! ## Fields of several characters -/

theorem be16_bytes16 (w : BitVec 16) : be16 (w.extractLsb' 8 8) (w.extractLsb' 0 8) = w := by
  rw [be16, BitVec.extractLsb'_append_extractLsb'_eq_extractLsb' (show 8 = 0 + 8 from rfl)]
  exact BitVec.extractLsb'_eq_self

theorem be32_bytes32 (w : BitVec 32) : be32 (w.extractLsb' 24 8) (w.extractLsb' 16 8) (w.extractLsb' 8 8)
    (w.extractLsb' 0 8) = w := by
  rw [be32, BitVec.extractLsb'_append_extractLsb'_eq_extractLsb' (show 24 = 16 + 8 from rfl),
    BitVec.extractLsb'_append_extractLsb'_eq_extractLsb' (show 16 = 8 + 8 from rfl),
    BitVec.extractLsb'_append_extractLsb'_eq_extractLsb' (show 8 = 0 + 8 from rfl)]
  exact BitVec.extractLsb'_eq_self

/-! ## The codes of a STATUS payload -/

@[simp] theorem Announced.ofByte_byte (a : Announced) : Announced.ofByte a.byte = some a := by
  cases a <;> rfl

@[simp] theorem CleanState.ofByte_byte (c : CleanState) : CleanState.ofByte c.byte = some c := by
  cases c <;> rfl

theorem Announced.ofByte_of_le {b : Byte} (h : b.toNat ≤ 1) : ∃ a, Announced.ofByte b = some a := by
  unfold Announced.ofByte
  split
  · exact ⟨_, rfl⟩
  · rw [if_pos (by bv_omega)]
    exact ⟨_, rfl⟩

/-- What a code says of the station state (R106, R196). -/
theorem Announced.ofByte_spec {b : Byte} {a : Announced} (h : Announced.ofByte b = some a) :
    b.toNat ≤ 1 ∧ (a = .stopped ↔ b = 0) := by
  unfold Announced.ofByte at h
  split at h
  next h0 =>
    obtain rfl := Option.some.inj h
    simp [h0]
  next h0 =>
    split at h
    next h1 =>
      obtain rfl := Option.some.inj h
      simp [h1]
    next => simp at h

theorem CleanState.ofByte_of_le {b : Byte} (h : b.toNat ≤ 2) : ∃ c, CleanState.ofByte b = some c := by
  unfold CleanState.ofByte
  split
  · exact ⟨_, rfl⟩
  · split
    · exact ⟨_, rfl⟩
    · rw [if_pos (by bv_omega)]
      exact ⟨_, rfl⟩

/-- What a code says of the clean state (R106, R196). -/
theorem CleanState.ofByte_spec {b : Byte} {c : CleanState} (h : CleanState.ofByte b = some c) :
    b.toNat ≤ 2 ∧ (c = .none ↔ b = 0) ∧ (c = .claiming ↔ b = 1) := by
  unfold CleanState.ofByte at h
  split at h
  next h0 =>
    obtain rfl := Option.some.inj h
    simp [h0]
  next h0 =>
    split at h
    next h1 =>
      obtain rfl := Option.some.inj h
      simp [h1]
    next h1 =>
      split at h
      next h2 =>
        obtain rfl := Option.some.inj h
        simp [h2]
      next => simp at h

/-! ## The entries of a STATUS payload -/

/-- The eleven characters from a position spell an entry (R196). -/
def EntryAt (cs : List Byte) (o : Nat) (e : LinkEntry) : Prop :=
  e.source = cs.getD (o + 0) 0 ∧ e.gen = cs.getD (o + 1) 0 ∧ e.empty = (cs.getD (o + 2) 0).getLsbD 0 ∧
  e.full = be32 (cs.getD (o + 3) 0) (cs.getD (o + 4) 0) (cs.getD (o + 5) 0) (cs.getD (o + 6) 0) ∧
  e.cum = be32 (cs.getD (o + 7) 0) (cs.getD (o + 8) 0) (cs.getD (o + 9) 0) (cs.getD (o + 10) 0)

theorem getD_append_at (a cs : List Byte) (o k : Nat) :
    (a ++ cs).getD (a.length + o + k) 0 = cs.getD (o + k) 0 := by
  rw [List.getD_append_right _ _ _ _ (by omega), show a.length + o + k - a.length = o + k by omega]

/-- An entry stands behind characters put before it. -/
theorem EntryAt.append {cs : List Byte} {o : Nat} {e : LinkEntry} (h : EntryAt cs o e) (a : List Byte) :
    EntryAt (a ++ cs) (a.length + o) e := by
  simpa only [EntryAt, getD_append_at] using h

/-- The entries read from a payload: eleven characters each, in their order (R106, R196). -/
theorem parseEntries_spelled {cs : List Byte} {es : List LinkEntry} (h : parseEntries cs = some es) :
    cs.length = 11 * es.length ∧ ∀ (n : Nat) (e : LinkEntry), es[n]? = some e → EntryAt cs (11 * n) e := by
  induction cs using parseEntries.induct generalizing es with
  | case1 =>
    obtain rfl := Option.some.inj h
    exact ⟨rfl, by simp⟩
  | case2 s g f a3 a2 a1 a0 c3 c2 c1 c0 rest ih =>
    rw [parseEntries, Option.map_eq_some_iff] at h
    obtain ⟨tail, htail, rfl⟩ := h
    obtain ⟨hlen, hentries⟩ := ih htail
    refine ⟨by simp only [List.length_cons]; omega, fun n e he => ?_⟩
    cases n with
    | zero =>
      obtain rfl := Option.some.inj he
      exact ⟨rfl, rfl, rfl, rfl, rfl⟩
    | succ n =>
      have hat := (hentries n e he).append [s, g, f, a3, a2, a1, a0, c3, c2, c1, c0]
      rwa [show [s, g, f, a3, a2, a1, a0, c3, c2, c1, c0].length + 11 * n = 11 * (n + 1) by
        simp only [List.length_cons, List.length_nil]; omega] at hat
  | case3 cs hnil hcons => simp [parseEntries] at h

theorem eq_cons_of_length_eleven {cs : List Byte} {m : Nat} (h : cs.length = m + 11) :
    ∃ s g f a3 a2 a1 a0 c3 c2 c1 c0 rest,
      cs = s :: g :: f :: a3 :: a2 :: a1 :: a0 :: c3 :: c2 :: c1 :: c0 :: rest := by
  match cs, h with
  | s :: g :: f :: a3 :: a2 :: a1 :: a0 :: c3 :: c2 :: c1 :: c0 :: rest, _ =>
    exact ⟨s, g, f, a3, a2, a1, a0, c3, c2, c1, c0, rest, rfl⟩

/-- Characters in elevens are entries: an entry has no content check (R106). -/
theorem parseEntries_of_length {n : Nat} : ∀ {cs : List Byte}, cs.length = 11 * n →
    ∃ es, parseEntries cs = some es := by
  induction n with
  | zero =>
    intro cs h
    exact ⟨[], by rw [List.eq_nil_of_length_eq_zero h, parseEntries]⟩
  | succ n ih =>
    intro cs h
    obtain ⟨s, g, f, a3, a2, a1, a0, c3, c2, c1, c0, rest, rfl⟩ := eq_cons_of_length_eleven h
    simp only [List.length_cons] at h
    obtain ⟨es, hes⟩ := ih (cs := rest) (by omega)
    exact ⟨_, by rw [parseEntries, hes, Option.map_some]⟩

theorem LinkEntry.chars_length (e : LinkEntry) : e.chars.length = 11 := rfl

theorem parseEntries_chars (es : List LinkEntry) : parseEntries (es.flatMap LinkEntry.chars) = some es := by
  induction es with
  | nil => rfl
  | cons e es ih =>
    have hflag : (if e.empty then (1 : Byte) else 0).getLsbD 0 = e.empty := by cases e.empty <;> rfl
    rw [List.flatMap_cons, LinkEntry.chars, bytes32, bytes32]
    simp only [List.cons_append, List.nil_append, parseEntries, ih, be32_bytes32, hflag, Option.map_some]

/-! ## The content of a payload -/

section content

variable {st d cl age n : Byte} {rest : List Byte} {b : StatusBody}

/-- The STATUS that a payload of five characters and entries spells, and its content checks (R106). -/
theorem parseStatus_iff : parseStatus (st :: d :: cl :: age :: n :: rest) = some b ↔
    Announced.ofByte st = some b.running ∧ b.demand = d ∧ CleanState.ofByte cl = some b.clean ∧ b.age = age ∧
    parseEntries rest = some b.entries ∧ b.entries.length = n.toNat ∧ n.toNat ≤ 8 := by
  obtain ⟨state, demand, clean, bage, entries⟩ := b
  rw [parseStatus]
  cases Announced.ofByte st with
  | none => simp
  | some r =>
    cases CleanState.ofByte cl with
    | none => simp
    | some c =>
      cases parseEntries rest with
      | none => simp
      | some es =>
        simp only [Option.some.injEq, Option.ite_none_right_eq_some, StatusBody.mk.injEq]
        grind

theorem parseStatus_chars (h : b.entries.length ≤ 8) : parseStatus b.chars = some b := by
  have hn : (BitVec.ofNat 8 b.entries.length).toNat = b.entries.length := by
    rw [BitVec.toNat_ofNat, Nat.mod_eq_of_lt (by omega)]
  exact parseStatus_iff.mpr ⟨by simp, rfl, by simp, rfl, parseEntries_chars _, hn.symm, by omega⟩

theorem StatusBody.chars_length (b : StatusBody) : b.chars.length = 5 + 11 * b.entries.length := by
  simp [StatusBody.chars, List.length_flatMap, LinkEntry.chars_length]
  omega

theorem parseChange_chars (c : ChangeBody) : parseChange c.chars = some c :=
  congrArg some (congrArg (ChangeBody.mk c.source c.gen) (be32_bytes32 c.full))

/-- Six characters are a CHANGE: it has no content check (R106). -/
theorem parseChange_of_length {payload : List Byte} (h : payload.length = 6) :
    parseChange payload = some ⟨payload.getD 0 0, payload.getD 1 0,
      be32 (payload.getD 2 0) (payload.getD 3 0) (payload.getD 4 0) (payload.getD 5 0)⟩ := by
  match payload, h with
  | [_, _, _, _, _, _], _ => rfl

theorem eq_cons_of_length_five {payload : List Byte} (h : 5 ≤ payload.length) :
    ∃ st d cl age n rest, payload = st :: d :: cl :: age :: n :: rest := by
  obtain ⟨m, hm⟩ := Nat.exists_eq_add_of_le' h
  match payload, hm with
  | st :: d :: cl :: age :: n :: rest, _ => exact ⟨st, d, cl, age, n, rest, rfl⟩

end content

/-! ## The judgement of a character -/

section judge

variable {kind number len high v : Byte} {payload rest : List Byte} {b : StatusBody}

theorem judgeChar_kind : judgeChar [] v false =
    if v = kindStatus ∨ v = kindChange then .more else .fail .kind := rfl

theorem judgeChar_station : judgeChar [kind] v false =
    if stationInRange v = true then .more else .fail .station := rfl

theorem judgeChar_length : judgeChar [kind, number] v false =
    if lengthFits kind v.toNat = true then .more else .fail .length := rfl

/-- What stands behind the length is gathered until the low CRC character (R105). -/
theorem judgeChar_payload (h : rest.length < len.toNat + 1) :
    judgeChar (kind :: number :: len :: rest) v false = .more := by
  simp [judgeChar, h]

/-- The low CRC character: the CRC is judged first, then the content (R105, R106). -/
theorem judgeChar_last (h : payload.length = len.toNat) :
    judgeChar (kind :: number :: len :: (payload ++ [high])) v false =
      if be16 high v ≠ crc16 (kind :: number :: len :: payload) then .fail .crc
      else (parseFrame kind number payload).elim (.fail .content) .done := by
  have hlast : ¬ (payload ++ [high]).length < payload.length + 1 := by
    rw [List.length_append, List.length_singleton]
    omega
  simp only [judgeChar, hlast, if_false, ← h, List.take_left, List.getD_append_right _ _ _ _ le_rfl,
    Nat.sub_self, List.getD_cons_zero, Bool.false_eq_true]
  cases parseFrame kind number payload <;> rfl

/-- The payload lengths of each kind (R102). -/
theorem lengthFits_iff (n : Nat) : lengthFits kind n = true ↔
    (kind = kindStatus ∧ n ∈ [5, 16, 27, 38, 49, 60, 71, 82, 93]) ∨ (kind ≠ kindStatus ∧ n = 6) := by
  unfold lengthFits
  split
  next hk =>
    simp only [hk, Bool.and_eq_true, decide_eq_true_eq, beq_iff_eq, List.mem_cons, List.not_mem_nil,
      ne_eq, not_true_eq_false, false_and, or_false, true_and]
    omega
  next hk => simp [hk]

/-- A STATUS payload has its content in range exactly when it spells a STATUS (R106). -/
theorem parseStatus_exists_iff (h : 5 ≤ payload.length) : (∃ b, parseStatus payload = some b) ↔
    (payload.getD 0 0).toNat ≤ 1 ∧ (payload.getD 2 0).toNat ≤ 2 ∧ (payload.getD 4 0).toNat ≤ 8 ∧
    payload.length = 5 + 11 * (payload.getD 4 0).toNat := by
  obtain ⟨st, d, cl, age, n, rest, rfl⟩ := eq_cons_of_length_five h
  have hlen : (st :: d :: cl :: age :: n :: rest).length = 5 + rest.length := by
    simp only [List.length_cons]
    omega
  change _ ↔ st.toNat ≤ 1 ∧ cl.toNat ≤ 2 ∧ n.toNat ≤ 8 ∧ _ = 5 + 11 * n.toNat
  rw [hlen]
  constructor
  · rintro ⟨b, hb⟩
    obtain ⟨hst, -, hcl, -, hes, hcount, hle⟩ := parseStatus_iff.mp hb
    have hrest := (parseEntries_spelled hes).1
    exact ⟨(Announced.ofByte_spec hst).1, (CleanState.ofByte_spec hcl).1, hle, by omega⟩
  · rintro ⟨hst, hcl, hle, hrest⟩
    obtain ⟨r, hr⟩ := Announced.ofByte_of_le hst
    obtain ⟨c, hc⟩ := CleanState.ofByte_of_le hcl
    obtain ⟨es, hes⟩ := parseEntries_of_length (n := n.toNat) (cs := rest) (by omega)
    have hcount := (parseEntries_spelled hes).1
    exact ⟨⟨r, d, c, age, es⟩, parseStatus_iff.mpr ⟨hr, rfl, hc, rfl, hes, by simp only; omega, hle⟩⟩

/-- A valid frame: its characters fit the checks of its kind, and its payload spells it (R102, R106). -/
theorem LinkFrame.covered_parses {f : LinkFrame} (h : f.wf = true) : ∃ kind payload,
    f.covered = kind :: f.station :: BitVec.ofNat 8 payload.length :: payload ∧
    (kind = kindStatus ∨ kind = kindChange) ∧ lengthFits kind payload.length = true ∧
    payload.length < 256 ∧ parseFrame kind f.station payload = some f := by
  obtain ⟨station, body⟩ := f
  cases body with
  | status b =>
    have hle : b.entries.length ≤ 8 := by
      simpa [FrameBody.wf] using (Bool.and_eq_true_iff.mp h).2
    have hlen := b.chars_length
    refine ⟨kindStatus, b.chars, rfl, .inl rfl, ?_, by omega, ?_⟩
    · simp only [lengthFits, if_true, hlen, Bool.and_eq_true, decide_eq_true_eq, beq_iff_eq]
      omega
    · rw [parseFrame, if_pos rfl, parseStatus_chars hle, Option.map_some]
  | change b =>
    refine ⟨kindChange, b.chars, rfl, .inr rfl, rfl, (by decide : 6 < 256), ?_⟩
    rw [parseFrame, if_neg (by decide), if_pos rfl, parseChange_chars, Option.map_some]

end judge

end Sys2Proof

namespace Sys2Proof.Machine

section spelled

variable {kind number : Byte} {payload : List Byte} {f : LinkFrame}

/-- The frame that a STATUS payload spells, field by field (R108, R196). -/
theorem frameSpelled_status {b : StatusBody} (hlen : 5 ≤ payload.length) (h : parseStatus payload = some b) :
    FrameSpelled 0x53 number payload ⟨number, .status b⟩ := by
  obtain ⟨st, d, cl, age, n, rest, rfl⟩ := eq_cons_of_length_five hlen
  obtain ⟨hst, hd, hcl, hage, hes, hcount, -⟩ := parseStatus_iff.mp h
  obtain ⟨hnone, hclaiming⟩ := (CleanState.ofByte_spec hcl).2
  exact ⟨rfl, rfl, (Announced.ofByte_spec hst).2, hd, hnone, hclaiming, hage, hcount, fun m e he =>
    ((parseEntries_spelled hes).2 m e he).append [st, d, cl, age, n]⟩

/-- The content that the payload of each kind must have (R106). -/
def ContentOk (kind : Byte) (payload : List Byte) : Prop :=
  kind = 0x43 ∨ ((payload.getD 0 0).toNat ≤ 1 ∧ (payload.getD 2 0).toNat ≤ 2 ∧
    (payload.getD 4 0).toNat ≤ 8 ∧ payload.length = 5 + 11 * (payload.getD 4 0).toNat)

theorem parseFrame_spelled (hlen : (kind = 0x53 ∧ 5 ≤ payload.length) ∨ (kind = 0x43 ∧ payload.length = 6))
    (h : ContentOk kind payload) :
    ∃ f, parseFrame kind number payload = some f ∧ FrameSpelled kind number payload f := by
  rcases hlen with ⟨rfl, hlen⟩ | ⟨rfl, hlen⟩
  · obtain ⟨b, hb⟩ := (parseStatus_exists_iff hlen).mpr (h.resolve_left (by decide))
    exact ⟨⟨number, .status b⟩, by simp [parseFrame, kindStatus, hb], frameSpelled_status hlen hb⟩
  · exact ⟨⟨number, .change _⟩, by simp [parseFrame, kindStatus, kindChange, parseChange_of_length hlen]; rfl,
      rfl, rfl, rfl, rfl, rfl⟩

theorem parseFrame_none (hlen : (kind = 0x53 ∧ 5 ≤ payload.length) ∨ (kind = 0x43 ∧ payload.length = 6))
    (h : ¬ ContentOk kind payload) : parseFrame kind number payload = none := by
  obtain ⟨hkind, hrange⟩ := not_or.mp h
  rcases hlen with ⟨rfl, hlen⟩ | ⟨rfl, -⟩
  · have hnone : parseStatus payload = none := by
      rw [Option.eq_none_iff_forall_ne_some]
      exact fun b hb => hrange ((parseStatus_exists_iff hlen).mp ⟨b, hb⟩)
    simp [parseFrame, kindStatus, hnone]
  · exact absurd rfl hkind

end spelled

/-! ## A character taken -/

section taken

variable {s : State} {v high : Byte} {err : Bool} {cs : List Byte}

theorem powered_live (hr : s.rstnLow = false) (f : State → State) : powered s f = f s := by
  rw [powered, hr, if_neg Bool.false_ne_true]

theorem exec_characterTaken (hr : s.rstnLow = false) :
    exec (.characterTaken v err) s = .next (takeChar v err s) :=
  congrArg Host.Outcome.next (powered_live hr _)

/-- The receive assembly in a state (R104). -/
def receiving (r : RxState) (s : State) : State := modLink (fun k => { k with rx := r }) s

theorem takeChar_hunt (h : s.link.rx = .hunt) : takeChar v err s =
    if err then discardFrame .character s
    else if v = delimiter then receiving (.assembly []) s else discardFrame .delimiter s := by
  simp only [takeChar, h]
  rfl

theorem takeChar_deaf (h : s.link.rx = .discard ∨ s.link.rx = .off) : takeChar v err s = s := by
  rcases h with h | h <;> simp only [takeChar, h]

theorem takeChar_more (h : s.link.rx = .assembly cs) (hj : judgeChar cs v err = .more) :
    takeChar v err s = receiving (.assembly (cs ++ [v])) s := by
  simp only [takeChar, h, hj]
  rfl

theorem takeChar_fail {c : RxCheck} (h : s.link.rx = .assembly cs) (hj : judgeChar cs v err = .fail c) :
    takeChar v err s = discardFrame c s := by
  simp only [takeChar, h, hj]

theorem takeChar_done {f : LinkFrame} (h : s.link.rx = .assembly cs) (hj : judgeChar cs v err = .done f) :
    takeChar v err s = arriveFrame f s := by
  simp only [takeChar, h, hj]

/-- A character that fits its position is gathered, and another one fails its check (R105). -/
theorem takeChar_position {p : Prop} [Decidable p] {c : RxCheck} (h : s.link.rx = .assembly cs)
    (hj : judgeChar cs v false = if p then .more else .fail c) : takeChar v false s =
      if p then receiving (.assembly (cs ++ [v])) s else discardFrame c s := by
  by_cases hp : p
  · rw [if_pos hp] at hj ⊢
    exact takeChar_more h hj
  · rw [if_neg hp] at hj ⊢
    exact takeChar_fail h hj

theorem takeChar_readback {f : TxFrame} (h : s.link.rx = .readback) (htx : s.link.tx = some f) :
    takeChar v err s = readBack f v err s := by
  simp only [takeChar, h, htx]

/-- A frame that arrives where one is looked for or gathered (R104, R107). -/
theorem exec_arrival (hr : s.rstnLow = false) (h : s.link.rx.listening = true) (f : LinkFrame) :
    exec (.validFrameArrival f) s = .next (arriveFrame f s) :=
  congrArg Host.Outcome.next ((powered_live hr _).trans (if_pos h))

end taken

/-- Settles O37: the state of the assembly, the position of the character in it, and the check that it fails. -/
theorem receiveAssembly : Obligations.ReceiveAssembly := by
  intro s hr up rx goes formatError
  have hlistening : rx = .hunt ∨ (∃ cs, rx = .assembly cs) → s.link.rx.listening = true := by
    rintro (h | ⟨cs, h⟩) <;> exact congrArg RxState.listening h
  refine ⟨fun h => ?_, fun h => ?_, fun v h hv => ?_, fun v h => ?_, fun v err h => ?_, fun v h => ?_,
    fun kind v h => ?_, fun kind number v h => ?_, fun kind number len v rest h hlen => ?_,
    fun kind number len high v payload h hlen hkind => ?_, fun f v err h htx => ?_, fun h c => ?_,
    fun h c f => ?_, fun h => ?_, fun cs h => ?_, fun h => ?_⟩
  · exact congrArg Host.Outcome.next ((powered_live hr _).trans (if_neg h))
  · rw [exec_characterTaken hr, takeChar_hunt h]
    rfl
  · rw [exec_characterTaken hr, takeChar_hunt h, if_neg Bool.false_ne_true,
      if_neg (show v ≠ delimiter from hv)]
    rfl
  · rw [exec_characterTaken hr]
    rcases h with h | ⟨cs, h⟩
    · rw [takeChar_hunt h, if_pos rfl]
      rfl
    · rw [takeChar_fail h rfl]
      rfl
  · rw [exec_characterTaken hr, takeChar_deaf h]
  · rw [exec_characterTaken hr, takeChar_position h judgeChar_kind]
    rfl
  · rw [exec_characterTaken hr, takeChar_position h judgeChar_station]
    simp only [stationInRange, Bool.and_eq_true, decide_eq_true_eq]
    rfl
  · rw [exec_characterTaken hr, takeChar_position h judgeChar_length]
    simp only [lengthFits_iff]
    rfl
  · rw [exec_characterTaken hr, takeChar_more h (judgeChar_payload hlen)]
    rfl
  · intro crc contentOk
    have hjudge := judgeChar_last (kind := kind) (number := number) (high := high) (v := v) hlen
    rw [← hlen] at hkind
    have hcontent : contentOk ↔ ContentOk kind payload := by
      rw [ContentOk, hlen]
    rw [exec_characterTaken hr]
    refine ⟨fun hcrc => ?_, fun hcrc hbad => ?_, fun hcrc hok => ?_⟩
    · rw [if_pos hcrc] at hjudge
      rw [takeChar_fail h hjudge]
      rfl
    · rw [if_neg (not_not.mpr hcrc), parseFrame_none hkind (mt hcontent.mpr hbad)] at hjudge
      rw [takeChar_fail h hjudge]
      rfl
    · obtain ⟨f, hf, hspelled⟩ := parseFrame_spelled (number := number) hkind (hcontent.mp hok)
      rw [if_neg (not_not.mpr hcrc), hf] at hjudge
      exact ⟨f, hspelled, by rw [takeChar_done h hjudge, exec_arrival hr (hlistening (.inr ⟨_, h⟩))]⟩
  · rw [exec_characterTaken hr, takeChar_readback h htx, exec_collision hr, exec_transmitSuccess hr, readBack]
    simp only [Bool.or_eq_true, bne_iff_ne, ne_eq, idleAfter_max, charEnd, bitTime]
    split
    · rfl
    · split
      · rfl
      · rw [show 44 * (f.sent + 2) = (f.sent + 2) * (11 * 4) from Nat.mul_comm _ _]
        rfl
  · have hdiscard : exec (.frameDiscarded c) s = .next (discardFrame c s) :=
      congrArg Host.Outcome.next ((powered_live hr _).trans (if_pos (hlistening h)))
    rw [hdiscard]
    cases c <;> rfl
  · have hdeaf : ¬ s.link.rx.listening = true := by
      rcases h with h | h | h <;> simp [show s.link.rx = _ from h, RxState.listening]
    exact ⟨congrArg Host.Outcome.next ((powered_live hr _).trans (if_neg hdeaf)),
      congrArg Host.Outcome.next ((powered_live hr _).trans (if_neg hdeaf))⟩
  · exact congrArg Host.Outcome.next ((powered_live hr _).trans (by rw [show s.link.rx = _ from h]; rfl))
  · exact congrArg Host.Outcome.next ((powered_live hr _).trans (by rw [show s.link.rx = _ from h]; rfl))
  · refine congrArg Host.Outcome.next ((powered_live hr _).trans ?_)
    rcases h with h | h | h <;> rw [show s.link.rx = _ from h]

/-! ## The characters of a frame -/

section characters

variable {s t : State} {f : LinkFrame} {kind number len v : Byte} {ws : List Byte}

/-- A character taken from the pair without an error. -/
def takenGood (v : Byte) : Instr := .characterTaken v false

theorem execAll_taken (hr : s.rstnLow = false) (ht : takeChar v false s = t) :
    execAll ((v :: ws).map takenGood) s = execAll (ws.map takenGood) t := by
  rw [List.map_cons, execAll, takenGood, exec_characterTaken hr, ht]

theorem execAll_gathered {cs : List Byte} (hr : s.rstnLow = false) (hj : judgeChar cs v false = .more) :
    execAll ((v :: ws).map takenGood) (receiving (.assembly cs) s) =
      execAll (ws.map takenGood) (receiving (.assembly (cs ++ [v])) s) :=
  execAll_taken (s := receiving (.assembly cs) s) hr (takeChar_more rfl hj)

/-- The kind, the station number and the payload length are gathered (R105). -/
theorem execAll_head (hr : s.rstnLow = false) (hkind : kind = kindStatus ∨ kind = kindChange)
    (hstation : stationInRange number = true) (hfits : lengthFits kind len.toNat = true) :
    execAll ((kind :: number :: len :: ws).map takenGood) (receiving (.assembly []) s) =
      execAll (ws.map takenGood) (receiving (.assembly [kind, number, len]) s) :=
  (execAll_gathered hr (judgeChar_kind.trans (if_pos hkind))).trans
    ((execAll_gathered hr (judgeChar_station.trans (if_pos hstation))).trans
      (execAll_gathered hr (judgeChar_length.trans (if_pos hfits))))

/-- The payload and the high CRC character are gathered one by one (R105). -/
theorem execAll_payload (hr : s.rstnLow = false) (vs : List Byte) :
    ∀ rest : List Byte, rest.length + vs.length ≤ len.toNat + 1 →
      execAll ((vs ++ ws).map takenGood) (receiving (.assembly (kind :: number :: len :: rest)) s) =
        execAll (ws.map takenGood) (receiving (.assembly (kind :: number :: len :: (rest ++ vs))) s) := by
  induction vs with
  | nil => simp
  | cons v vs ih =>
    intro rest hlen
    rw [List.length_cons] at hlen
    rw [List.cons_append, execAll_gathered hr (judgeChar_payload (by omega)), List.cons_append, List.cons_append,
      List.cons_append, ih _ (by rw [List.length_append, List.length_singleton]; omega), List.append_assoc,
      List.singleton_append]

/-- The state of the assembly before a valid frame arrives is lost with its arrival (R104). -/
theorem arriveFrame_receiving (h : f.wf = true) (r : RxState) (s : State) :
    arriveFrame f (receiving r s) = arriveFrame f s := by
  rw [arriveFrame, arriveFrame, if_pos h, if_pos h]
  rfl

/-- Settles O9: the characters pass the checks of their positions, and the low CRC character is the arrival. -/
theorem linkCharactersRoundTrip : Obligations.LinkCharactersRoundTrip := by
  intro f s hwf hr hrx
  obtain ⟨kind, payload, hcovered, hkind, hfits, hsmall, hparse⟩ := f.covered_parses hwf
  have hlen : (BitVec.ofNat 8 payload.length).toNat = payload.length := by
    rw [BitVec.toNat_ofNat, Nat.mod_eq_of_lt hsmall]
  have hstation : stationInRange f.station = true := (Bool.and_eq_true_iff.mp hwf).1
  have hstart : takeChar delimiter false s = receiving (.assembly []) s := by
    rw [takeChar_hunt hrx, if_neg Bool.false_ne_true, if_pos rfl]
  have hjudge := judgeChar_last (kind := kind) (number := f.station)
    (high := (crc16 f.covered).extractLsb' 8 8) (v := (crc16 f.covered).extractLsb' 0 8) hlen.symm
  rw [be16_bytes16, ← hcovered, if_neg (not_not.mpr rfl), hparse] at hjudge
  change execAll (f.chars.map takenGood) s = _
  rw [LinkFrame.chars, execAll_taken hr hstart, bytes16]
  generalize (crc16 f.covered).extractLsb' 8 8 = high at hjudge ⊢
  generalize (crc16 f.covered).extractLsb' 0 8 = low at hjudge ⊢
  calc execAll ((f.covered ++ [high, low]).map takenGood) (receiving (.assembly []) s)
      = execAll (((payload ++ [high]) ++ [low]).map takenGood)
          (receiving (.assembly [kind, f.station, BitVec.ofNat 8 payload.length]) s) := by
        rw [hcovered, List.append_assoc]
        exact execAll_head hr hkind hstation (by rwa [hlen])
    _ = execAll ([low].map takenGood) (receiving
          (.assembly (kind :: f.station :: BitVec.ofNat 8 payload.length :: (payload ++ [high]))) s) :=
        execAll_payload hr _ [] (by simp [hlen])
    _ = .next (arriveFrame f (receiving
          (.assembly (kind :: f.station :: BitVec.ofNat 8 payload.length :: (payload ++ [high]))) s)) :=
        execAll_taken (ws := []) (s := receiving _ s) hr (takeChar_done rfl hjudge)
    _ = exec (.validFrameArrival f) s := by
        rw [arriveFrame_receiving hwf, exec_arrival hr (congrArg RxState.listening hrx)]

end characters

end Sys2Proof.Machine

/-! SUPPORT. A peer's STATUS stored and a peer record gone STALE, with the claim that each evaluates, and their
statements (R125, R127 to R129, R142, R143, R178). -/

namespace Sys2Proof.Machine

/-! ## The claim evaluated at the end of an event -/

section claim

variable {w : State}

theorem evaluateClaim_claiming (hr : w.clean.runState = .claiming) : evaluateClaim w =
    if 2 ≤ w.clean.age ∧ aheadCount w < w.cfg.cleanSlots ∧ w.link.mute = false
    then enterRunning (modClean (fun c => { c with ahead := aheadCount w }) w)
    else modClean (fun c => { c with ahead := aheadCount w }) w := by
  simp [evaluateClaim, hr, and_assoc]

/-- The claim evaluation of a station that is sound, or has no run in CLAIMING (R178). -/
theorem claimEvaluated_evaluateClaim (h : StationOk w ∨ w.clean.runState ≠ .claiming) :
    ClaimEvaluated w (evaluateClaim w) := by
  refine ⟨evaluateClaim_idle, fun hr => ?_⟩
  obtain ⟨j, hj⟩ := (h.resolve_right (not_not.mpr hr)).claimHeld hr
  have hheld : ClaimHeld j (modClean (fun c => { c with ahead := aheadCount w }) w) :=
    ⟨hj.job, hj.reserved, hj.starts, hj.station⟩
  rw [evaluateClaim_claiming hr]
  change if 2 ≤ w.clean.age ∧ aheadCount w < w.cfg.cleanSlots ∧ w.link.mute = false then _ else _
  split
  · exact ⟨j, hj.job, enterRunning_begins hheld (Only.refl _ _) (enterRunning_requests hheld)⟩
  · rfl

end claim

theorem StationOk.sound {s : State} (h : StationOk s) : Sound False s :=
  stationOk_lampsOk_iff.mp ⟨h, False.elim⟩

theorem Sound.stationOk {L : Prop} {s : State} (h : Sound L s) : StationOk s :=
  (stationOk_lampsOk_iff.mpr h).1

/-- A STATUS asked for, or not, leaves the receive assembly (R104, R111). -/
theorem Asks.rx {s t : State} (h : Asks s t) : t.link.rx = s.link.rx := by
  rcases h.link with hlink | hlink
  · rw [hlink]
  · rw [hlink]
    by_cases hclosed : s.link.mute = true ∨ s.station = .unconfigured
    · rw [requestStatus_closed hclosed]
    · obtain ⟨hmute, hstation⟩ := not_or.mp hclosed
      rw [requestStatus_link (by simpa using hmute) hstation, chooseFrame_requested rfl]

/-! ## A STATUS stored -/

section stored

variable (n : Fin 32) (b : StatusBody) {s : State}

/-- The processing of entries and the low tests leave the Peer Table: the new record alone is stored (R125). -/
theorem statusTaken_peers : (statusTaken n b s).peers =
    (s.setPeer n (some { fresh := true, lastAt := s.now, body := b })).peers := by
  have hlow : (statusTaken n b s).peers =
      ((processEntries (heldEntries s n) b.entries s).setPeer n
        (some { fresh := true, lastAt := s.now, body := b })).peers :=
    lowTests_only _ .peers (by simp)
  have hentries : (processEntries (heldEntries s n) b.entries s).peers = s.peers :=
    processEntries_only s .peers (by simp)
  rw [hlow, State.setPeer, hentries]
  rfl

/-- A STATUS taken touches what its entries do, and the Peer Table (R92, R125). -/
theorem statusTaken_only :
    Only [.lines, .starts, .sources, .attn, .link, .peers] s (statusTaken n b s) :=
  (((processEntries_only s).mono (by simp)).trans ((setPeer_only _ n _).mono (by simp))).trans
    ((lowTests_only _).mono (by simp))

theorem statusTaken_rx : (statusTaken n b s).link.rx = s.link.rx := by
  rw [statusTaken, (asks_lowTests _ _ _).rx, setPeer_link, (asks_processEntries s _ _).rx]

theorem sound_statusTaken {L : Prop} (h : Sound L s) : Sound L (statusTaken n b s) :=
  sound_lowTests (sound_setPeer (sound_processEntries h _ _) _ _) _ _

/-- With no entry stored or carried no source is processed (R92). -/
theorem statusTaken_noEntries (hheld : heldEntries s n = []) (hnew : b.entries = []) :
    statusTaken n b s = s.setPeer n (some { fresh := true, lastAt := s.now, body := b }) := by
  have hnone : namedSources [] [] = [] := List.filter_eq_nil_iff.mpr fun _ _ => by simp [firstEntry]
  simp only [statusTaken, processEntries, lowTests, hheld, hnew, hnone, List.foldl_nil]

theorem heldEntries_nil (h : ∀ p, s.peer n = some p → p.body.entries = []) : heldEntries s n = [] := by
  unfold heldEntries
  split
  next p hp => exact h p hp
  next => rfl

end stored

/-- Settles O39: the STATUS is taken with the assembly in HUNT, and the claim evaluated after that. -/
theorem peerStatusStored : Obligations.PeerStatusStored := by
  intro station b n s hr hb hst hn hl
  obtain ⟨u, hu⟩ : ∃ u, u = statusTaken n b (hunting s) := ⟨_, rfl⟩
  have hpeers : u.peers = (s.setPeer n (some { fresh := true, lastAt := s.now, body := b })).peers :=
    hu ▸ statusTaken_peers n b
  have hpeer : ∀ m, u.peer m = (s.setPeer n (some { fresh := true, lastAt := s.now, body := b })).peer m :=
    fun m => by simp only [State.peer, hpeers]
  have honly : Only [.lines, .starts, .sources, .attn, .link, .peers] s u :=
    ((hunting_only s).mono (by simp)).trans (hu ▸ statusTaken_only n b)
  have hrx : u.link.rx = .hunt := hu ▸ statusTaken_rx n b
  have hclean : u.clean = s.clean := honly .clean (by simp)
  refine ⟨u, evaluateClaim u, by rw [exec_status hr hb hst hn hl, hu], ?_, fun m hm => ?_, hrx, honly,
    fun hnew hheld => ?_, evaluateClaim_only u .peers (by simp), (asks_evaluateClaim u).rx.trans hrx,
    fun h => claimEvaluated_evaluateClaim (h.imp (fun hok => ?_) fun hidle => ?_)⟩
  · rw [hpeer, peer_setPeer_same]
  · rw [hpeer, peer_setPeer_ne s _ hm]
  · rw [hu, statusTaken_noEntries n b (heldEntries_nil (s := hunting s) n hheld) hnew]
    exact ⟨((hunting_only s).mono (by simp)).trans ((setPeer_only _ n _).mono (by simp)), rfl⟩
  · exact hu ▸ (sound_statusTaken n b (sound_modLink hok.sound _)).stationOk
  · rwa [hclean]

/-! ## A record gone STALE -/

/-- What a place of the Peer Table adds to the sum of the FRESH peers' demand (R142). -/
def demandIn (p : Option PeerRec) : Nat :=
  match p with
  | some p => if p.fresh then p.body.demand.toNat else 0
  | none => 0

theorem sum_freshDemand (ps : List (Option PeerRec)) :
    (((ps.filterMap id).filter PeerRec.fresh).map fun p => p.body.demand.toNat).sum =
      (ps.map demandIn).sum := by
  induction ps with
  | nil => rfl
  | cons p rest ih =>
    rw [List.map_cons, List.sum_cons, ← ih]
    cases p with
    | none => simp [demandIn]
    | some p => cases hf : p.fresh <;> simp [demandIn, hf]

/-- One record stored for another in the sum of the FRESH peers' demand (R142). -/
theorem freshPeerDemand_setPeer (s : State) (n : Fin 32) (p : Option PeerRec) :
    freshPeerDemand (s.setPeer n p) + demandIn (s.peer n) = freshPeerDemand s + demandIn p := by
  have h := sum_map_set demandIn s.peers.toList n.val p (by rw [Vector.length_toList]; exact n.isLt)
  rw [Vector.getElem_toList, ← Vector.toList_set (h := n.isLt), ← sum_freshDemand, ← sum_freshDemand] at h
  exact h

/-- PEER_EXPIRY of a station of which the table holds a record, by its age (R127, R129). -/
theorem exec_peerExpiry {station : Byte} {n : Fin 32} {p : PeerRec} {s : State}
    (hr : s.rstnLow = false) (hst : station.toNat = n.val + 1) (hp : s.peer n = some p) :
    exec (.peerExpiry station) s = .next (if p.expired s.now
      then evaluateClaim (staleRegrant (s.setPeer n (some { p with fresh := false }))) else s) := by
  change Host.Outcome.next (powered s _) = _
  simp only [powered, hr, Bool.false_eq_true, if_false, peerIndex_eq hst, hp]

theorem peerExpired_iff (p : PeerRec) (now : Nat) :
    p.expired now = true ↔ p.fresh = true ∧ p.lastAt + 1500000 ≤ now := by
  rw [PeerRec.expired, Bool.and_eq_true, decide_eq_true_iff]
  rfl

theorem regrant_only (s : State) : Only [.cool] s (regrant s) := cool_only s _

theorem servedIf_only (c : Bool) (s : State) :
    Only [.lines, .starts, .pours, .journal] s (servedIf c s) := by
  cases c
  · exact Only.refl _ s
  · exact serve_only s

/-- The grant computed again, and the list served when that clears the starved flag (R13, R143). -/
theorem staleRegrant_served (s : State) :
    staleRegrant s = servedIf (s.cool.starved && !(regrant s).cool.starved) (regrant s) := rfl

theorem staleRegrant_only (s : State) :
    Only [.lines, .starts, .pours, .journal, .cool] s (staleRegrant s) :=
  ((regrant_only s).mono (by simp)).trans ((servedIf_only _ _).mono (by simp))

/-- Settles O44: a record of 3000 ms goes STALE, the grant is computed again without it, and the claim evaluated
after that. -/
theorem peerExpires : Obligations.PeerExpires := by
  intro station n p s hr hst hp
  have hexec := exec_peerExpiry hr hst hp
  refine ⟨fun h => ?_, fun hfresh hdue => ?_⟩
  · rw [hexec, if_neg]
    rw [peerExpired_iff]
    rintro ⟨hfresh, hdue⟩
    exact h.elim (by simp [hfresh]) hdue.not_gt
  · intro stale fresh sum grant u v
    have hsum := freshPeerDemand_setPeer s n (some { p with fresh := false })
    have hv : staleRegrant stale = v := staleRegrant_served stale
    have hsv : Only [.lines, .starts, .pours, .journal, .cool, .peers] s v := hv ▸
      ((setPeer_only s n _).mono (by simp)).trans ((staleRegrant_only stale).mono (by simp))
    rw [if_pos ((peerExpired_iff p s.now).mpr ⟨hfresh, hdue⟩)] at hexec
    refine ⟨by simpa [hp, demandIn, hfresh] using hsum, fun m hm => peer_setPeer_ne s _ hm,
      evaluateClaim v, hexec, ?_, ?_, fun hidle => ?_, fun hok => ?_⟩
    · exact (evaluateClaim_only v .peers (by simp)).trans (hv ▸ staleRegrant_only stale .peers (by simp))
    · exact (evaluateClaim_only v .sources (by simp)).trans (hsv .sources (by simp))
    · refine evaluateClaim_idle ?_
      rwa [show v.clean = s.clean from hsv .clean (by simp)]
    · exact claimEvaluated_evaluateClaim
        (.inl (hv ▸ (sound_staleRegrant (sound_setPeer hok.sound n _)).stationOk))

end Sys2Proof.Machine

/-! SUPPORT. A sample of the tower sensor and its statement (R13, R135 to R149). -/

namespace Sys2Proof.Machine

/-! ## Codes, temperatures and grants -/

theorem clampInt_eq {lo hi : Int} (h : lo ≤ hi) (x : Int) : clampInt lo hi x = min hi (max lo x) := by
  unfold clampInt
  split
  · omega
  · split <;> omega

/-- The temperature of a good code within its bounds (R136). -/
theorem towerTemp_eq (c ms : Nat) (os : Int) : towerTemp c ms os =
    min 800 (max (-400) ((((c * ms + 512) / 1024 : Nat) : Int) + os)) :=
  clampInt_eq (by decide) _

/-- The codes of a sound sensor (R137). -/
theorem goodCode_iff (c : BitVec 12) : goodCode c = true ↔ 16 ≤ c.toNat ∧ c.toNat ≤ 4079 := by
  simp only [goodCode, Bool.and_eq_true, decide_eq_true_iff]
  omega

/-- What the code of a sample makes of the sensor's figures (R135 to R139). -/
def sensed (c : BitVec 12) (cfg : Cfg) (k : Cooling) : Cooling :=
  { k with
    lastCode := c, fault := !goodCode c,
    temp := if goodCode c then some (towerTemp c.toNat cfg.ms cfg.os) else k.temp,
    faultSamples := if goodCode c then 0 else if k.fault then satInc max8 k.faultSamples else 1 }

theorem takeCode_eq (c : BitVec 12) (s : State) : takeCode c s = { s with
    cool := sensed c s.cfg s.cool,
    attn := if !goodCode c && !s.cool.fault then s.attn.set .sensorFault else s.attn } := by
  cases hgood : goodCode c with
  | true => simp [takeCode, sensed, hgood]
  | false => cases hfault : s.cool.fault <;> simp [takeCode, sensed, hgood, hfault, raise]

/-- A demand with the grant and the starved flag that follow from it (R142, R144). -/
def granted (d fresh cap : Nat) (k : Cooling) : Cooling :=
  { k with
    demand := d, grant := grantOf d (d + fresh) cap,
    starved := decide (grantOf d (d + fresh) cap < d), freshDemand := fresh }

theorem regrant_eq (s : State) : regrant s =
    { s with cool := granted s.cool.demand (freshPeerDemand s) s.cfg.cap s.cool } := rfl

/-! ## A sample before the lamps follow -/

section sample

variable (c : BitVec 12) (s : State)

/-- The state in which a sample makes its tests: the code is taken (R135 to R139). -/
def coded : State := takeCode c { s with cool := { s.cool with sampleFrom := some s.now } }

/-- The Cooling Controller once the warm hold is tested and the grant follows from the demand (R140 to R149). -/
def tested (w : State) : Cooling :=
  granted (demandNow w) (freshPeerDemand w) w.cfg.cap { w.cool with warmHold := warmAfter w }

/-- A sample up to the grant (R135 to R149). -/
def sampled : State := { coded c s with cool := tested (coded c s) }

theorem coded_eq : coded c s = { s with
    cool := sensed c s.cfg { s.cool with sampleFrom := some s.now },
    attn := if !goodCode c && !s.cool.fault then s.attn.set .sensorFault else s.attn } :=
  takeCode_eq c _

/-- After the grant the lamps follow, and the list is served when the warm hold or the starved flag clears
(R6, R13, R144, R148). -/
theorem sample_eq : sample c s = servedIf
    ((s.cool.warmHold && !(relampAll (sampled c s)).cool.warmHold) ||
      (s.cool.starved && !(relampAll (sampled c s)).cool.starved)) (relampAll (sampled c s)) := rfl

theorem sampled_frame : Only [.cool, .attn] s (sampled c s) := by
  rw [sampled, coded_eq]
  intro p hp
  cases p <;> simp_all [Part.same]

/-- A good code tests the warm hold, a faulty one leaves it (R148, R149). -/
theorem warmAfter_coded : warmAfter (coded c s) = if goodCode c then
    (if s.cfg.twarm ≤ towerTemp c.toNat s.cfg.ms s.cfg.os then true
      else if towerTemp c.toNat s.cfg.ms s.cfg.os ≤ s.cfg.twarm - s.cfg.hyst then false
      else s.cool.warmHold)
    else s.cool.warmHold := by
  rw [coded_eq]
  cases h : goodCode c <;> simp only [warmAfter, sensed, h] <;> rfl

/-- The demand of R140 within its bounds, the error taken from the temperature held (R137, R138, R147). -/
theorem demandNow_eq (w : State) : demandNow w = if w.cool.coolOff then 0
    else if w.cool.fault = true ∧ 41 ≤ w.cool.faultSamples then w.cfg.dfault
    else
      let e := match w.cool.temp with
        | some temp => temp - w.cfg.tset
        | none => 0
      (min 255 (max 0 (Int.fdiv (e * w.cfg.dgain) 16 + w.pours * w.cfg.dpour))).toNat := by
  simp only [demandNow, demandOf, clampInt_eq (show (0 : Int) ≤ 255 by decide), Bool.and_eq_true,
    decide_eq_true_iff, Nat.cast_mul] <;> rfl

/-- A code taken leaves what the demand and the grant are computed from besides the sensor (R140, R142). -/
theorem coded_reads : (coded c s).cfg = s.cfg ∧ (coded c s).pours = s.pours ∧
    freshPeerDemand (coded c s) = freshPeerDemand s := by
  rw [coded_eq]
  exact ⟨rfl, rfl, rfl⟩

theorem coded_cool : (coded c s).cool = sensed c s.cfg { s.cool with sampleFrom := some s.now } := by
  rw [coded_eq]

/-- A fault that begins sets SENSOR-FAULT (R137). -/
theorem coded_attn : (coded c s).attn =
    if !goodCode c && !s.cool.fault then s.attn.set .sensorFault else s.attn := by
  rw [coded_eq]

/-- Every lamp follows its line (R6). -/
theorem relampAll_becomes (i : LineNo) : LineBecomes (relampAll s) i (s.line i) :=
  overLines_becomes relamp_others relamp_only (by simp) allLines_nodup (mem_allLines i)
    fun u _ hu => hu ▸ relamp_line i u

theorem relampAll_only : Only [.lines] s (relampAll s) := overLines_only relamp_only allLines s

end sample

/-- Settles O45: the code is taken, the warm hold tested, the demand and the grant computed; then the lamps
follow and the list is served. -/
theorem sensorSample : Obligations.SensorSample := by
  intro code s hr hs c good
  have hexec : exec (.sensorSample code) s = .next (sample code s) := by
    simp [exec, execSensorSample, powered, hr, hs]
  have hgood : good ↔ goodCode code = true := (goodCode_iff code).symm
  obtain ⟨w, hw⟩ : ∃ w, w = sampled code s := ⟨_, rfl⟩
  have hsw : Only [.cool, .attn] s w := hw ▸ sampled_frame code s
  have hwu := relampAll_only w
  have hcool : (relampAll w).cool = tested (coded code s) := (hwu .cool (by simp)).trans (by rw [hw]; rfl)
  have hattn : (relampAll w).attn = (coded code s).attn := (hwu .attn (by simp)).trans (by rw [hw]; rfl)
  have hwarm := warmAfter_coded code s
  have hdemand := demandNow_eq (coded code s)
  obtain ⟨hcfg, hpours, hfresh⟩ := coded_reads code s
  rw [hcfg, hpours, coded_cool] at hdemand
  refine ⟨relampAll w, _, hexec, hw ▸ sample_eq code s, (hsw.mono (by simp)).trans (hwu.mono (by simp)),
    fun i => line_congr (hsw .lines (by simp)) i ▸ relampAll_becomes w i, ?_⟩
  simp only [hcool, hattn, tested, granted, coded_cool, hcfg, hfresh, sensed, ← towerTemp_eq, true_and,
    and_true]
  generalize demandNow (coded code s) = d at hdemand ⊢
  refine ⟨?_, ?_, ?_, ?_, fun temp hg ht => ?_, fun hg => ?_, ?_, rfl⟩
  · simp [coded_attn, hgood]
  · simp only [hgood, c]
  · simp [hgood]
  · simp only [hgood]
    rfl
  · rw [if_pos (hgood.mp hg)] at ht
    rw [hwarm, if_pos (hgood.mp hg), Option.some.inj ht]
  · rw [hwarm, if_neg (hgood.not.mp hg)]
  · rw [hdemand]
    simp [sensed, hgood] <;> rfl

end Sys2Proof.Machine

/-! SUPPORT. What the operations of the Cooling Controller keep of its figures, and the relation between the
states before and after an operation that keeps them (R134, R142, R144, R145, R147). -/

namespace Sys2Proof.Machine

/-! ## The figures of the Cooling Controller -/

/-- The figures of the Cooling Controller as R134, R144, R145 and R147 give them, under a grant limit. -/
structure Cooling.Ok (k : Cooling) (cap : Nat) : Prop where
  grant : k.grant ≤ k.demand
  demand : k.demand ≤ 255
  cap : k.grant ≤ cap
  latched : k.latched ≤ 255
  starved : k.starved = decide (k.grant < k.demand)
  coolOff : k.coolOff = true → k.demand = 0 ∧ k.gly = false
  sound : k.fault = false → k.faultSamples = 0
  faultSamples : k.faultSamples ≤ 255
  temp : ∀ t ∈ k.temp, -400 ≤ t ∧ t ≤ 800

theorem coolingOk_iff (s : State) : CoolingOk s ↔ s.cool.Ok s.cfg.cap ∧ s.cfg.dfault ≤ 255 ∧
    (s.station = .unconfigured → s.config = none) :=
  ⟨fun ⟨hgrant, hdemand, hcap, hlatched, hstarved, hoff, hsound, hfaulty, htemp, hrest⟩ =>
      ⟨⟨hgrant, hdemand, hcap, hlatched, hstarved, hoff, hsound, hfaulty, htemp⟩, hrest⟩,
    fun ⟨⟨hgrant, hdemand, hcap, hlatched, hstarved, hoff, hsound, hfaulty, htemp⟩, hrest⟩ =>
      ⟨hgrant, hdemand, hcap, hlatched, hstarved, hoff, hsound, hfaulty, htemp, hrest⟩⟩

/-! ## Grants, temperatures and demands in their bounds -/

theorem grantOf_le_demand (d sum cap : Nat) : grantOf d sum cap ≤ d := by
  unfold grantOf
  split
  · exact le_rfl
  next h => exact Nat.div_le_of_le_mul (Nat.mul_comm sum d ▸ Nat.mul_le_mul_left d (Nat.le_of_not_le h))

/-- The station's share of the limit stays within the limit (R142). -/
theorem grantOf_le_cap {d sum cap : Nat} (h : d ≤ sum) : grantOf d sum cap ≤ cap := by
  unfold grantOf
  split
  next hsum => exact h.trans hsum
  next => exact Nat.div_le_of_le_mul (Nat.mul_le_mul_right cap h)

theorem towerTemp_bounds (c ms : Nat) (os : Int) :
    -400 ≤ towerTemp c ms os ∧ towerTemp c ms os ≤ 800 := by
  rw [towerTemp_eq]
  omega

theorem demandNow_le {s : State} (h : s.cfg.dfault ≤ 255) : demandNow s ≤ 255 := by
  rw [demandNow_eq]
  split
  · exact Nat.zero_le _
  · split
    · exact h
    · simp only
      omega

theorem demandNow_coolOff {s : State} (h : s.cool.coolOff = true) : demandNow s = 0 := by
  rw [demandNow_eq, if_pos h]

/-! ## The operations on the figures -/

section figures

variable {k : Cooling} {cap : Nat}

theorem Cooling.Ok.mono (h : k.Ok cap) {limit : Nat} (hle : cap ≤ limit) : k.Ok limit :=
  { h with cap := h.cap.trans hle }

theorem Cooling.reset_ok (cap : Nat) : Cooling.reset.Ok cap := by
  constructor <;> simp [reset]

/-- A demand is granted in its bounds, 0 while cool-off is set (R142, R144, R147). -/
theorem Cooling.Ok.granted (h : k.Ok cap) {d : Nat} (hd : d ≤ 255) (hoff : k.coolOff = true → d = 0)
    (fresh : Nat) : (granted d fresh cap k).Ok cap :=
  { h with
    grant := grantOf_le_demand _ _ _
    demand := hd
    cap := grantOf_le_cap (Nat.le_add_right d fresh)
    starved := rfl
    coolOff := fun hk => ⟨hoff hk, (h.coolOff hk).2⟩ }

/-- A code taken counts the faulty samples, saturating, and holds a temperature in its bounds (R136, R138). -/
theorem Cooling.Ok.sensed (h : k.Ok cap) (c : BitVec 12) (cfg : Cfg) : (sensed c cfg k).Ok cap := by
  have hcount : (if k.fault then satInc max8 k.faultSamples else 1) ≤ 255 := by
    split
    · exact satInc_le h.faultSamples
    · decide
  cases hgood : goodCode c with
  | true =>
    exact { h with
      sound := fun _ => by simp [Machine.sensed, hgood]
      faultSamples := by simp [Machine.sensed, hgood]
      temp := fun t ht => by
        simp only [Machine.sensed, hgood, if_true, Option.mem_some_iff] at ht
        exact ht ▸ towerTemp_bounds _ _ _ }
  | false =>
    exact { h with
      sound := fun hf => by simp [Machine.sensed, hgood] at hf
      faultSamples := by simpa [Machine.sensed, hgood] using hcount
      temp := by simpa [Machine.sensed, hgood] using h.temp }

/-- Cool-off sets the demand, the grant and GLY to nothing (R147). -/
theorem Cooling.Ok.coolWith (h : k.Ok cap) (on : Bool) : (coolWith on k).Ok cap := by
  unfold Machine.coolWith
  split
  · exact { h with coolOff := fun hk => by simp at hk }
  · split
    · exact h
    · exact { h with
        grant := le_rfl
        demand := Nat.zero_le _
        cap := Nat.zero_le _
        starved := rfl
        coolOff := fun _ => ⟨rfl, rfl⟩ }

/-- A glycol frame latches the grant held, which is 0 while cool-off is set (R145, R147). -/
theorem Cooling.Ok.latch (h : k.Ok cap) (since : Option Nat) :
    ({ k with latched := k.grant, frameFrom := since, gly := 0 < k.grant } : Cooling).Ok cap :=
  { h with
    latched := h.grant.trans h.demand
    coolOff := fun hk => by
      have hdemand := (h.coolOff hk).1
      have hgrant := h.grant
      exact ⟨hdemand, decide_eq_false (by omega)⟩ }

end figures

/-! ## An operation that keeps the figures -/

/-- What an operation does to the state keeps the cooling as its rules give it. -/
def Cools (s t : State) : Prop := CoolingOk s → CoolingOk t

section cools

variable {s t u : State} {ps : List Part}

theorem Cools.refl (s : State) : Cools s s := id

theorem Cools.trans (h : Cools s t) (h' : Cools t u) : Cools s u := h' ∘ h

/-- The same, from the last operation backwards. -/
theorem Cools.after (h' : Cools t u) (h : Cools s t) : Cools s u := h.trans h'

/-- An operation made in some states and not in others. -/
theorem Cools.ite {c : Prop} [Decidable c] (h : Cools s t) (h' : Cools s u) : Cools s (if c then t else u) := by
  split
  · exact h
  · exact h'

/-- The same for the state that a command body leaves. -/
theorem Cools.answer {c : Prop} [Decidable c] {a b : State × Answer} (h : Cools s a.1) (h' : Cools s b.1) :
    Cools s (if c then a else b).1 := by
  split
  · exact h
  · exact h'

/-- An operation on the Cooling Controller, and on whether the station is in service. -/
theorem Cools.of_cool (hk : s.cool.Ok s.cfg.cap → t.cool.Ok s.cfg.cap) (hc : t.config = s.config)
    (hs : t.station = .unconfigured → s.station = .unconfigured) : Cools s t := by
  have hcfg : t.cfg = s.cfg := by simp only [State.cfg, hc]
  rw [Cools, coolingOk_iff, coolingOk_iff, hcfg, hc]
  exact fun ⟨hok, hfault, hnone⟩ => ⟨hk hok, hfault, hnone ∘ hs⟩

/-- An operation that leaves the configuration and the station state. -/
theorem Cools.of_frame (h : Only ps s t) (hps : .config ∉ ps ∧ .station ∉ ps)
    (hk : s.cool.Ok s.cfg.cap → t.cool.Ok s.cfg.cap) : Cools s t :=
  .of_cool hk (h .config hps.1) (Eq.trans (h .station hps.2).symm)

/-- The Cooling Controller stands, with its configuration. -/
theorem Cools.of_eq (hk : t.cool = s.cool) (hc : t.config = s.config)
    (hs : t.station = .unconfigured → s.station = .unconfigured) : Cools s t :=
  .of_cool (hk ▸ id) hc hs

theorem Cools.of_only (h : Only ps s t) (hps : .cool ∉ ps ∧ .config ∉ ps ∧ .station ∉ ps) :
    Cools s t :=
  .of_frame h hps.2 ((h .cool hps.1 : t.cool = s.cool) ▸ id)

theorem cools_setLine (i : LineNo) (l : Line) : Cools s (s.setLine i l) := .of_eq rfl rfl id

theorem cools_modLink (f : Link → Link) : Cools s (modLink f s) := .of_eq rfl rfl id

theorem cools_modClean (f : Cleaning → Cleaning) : Cools s (modClean f s) := .of_eq rfl rfl id

theorem cools_raise (f : AttnFlag) : Cools s (raise f s) := .of_eq rfl rfl id

theorem cools_powered {f : State → State} (h : Cools s (f s)) : Cools s (powered s f) := .ite (.refl s) h

theorem cools_overLines {f : LineNo → State → State} (h : ∀ i s, Cools s (f i s)) (is : List LineNo)
    (s : State) : Cools s (overLines f is s) := by
  induction is generalizing s with
  | nil => exact .refl s
  | cons i rest ih => exact (h i s).trans (ih _)

/-- Every figure is 0 after a reset, and no configuration is loaded (R134, R193). -/
theorem cools_resetAct (s : State) : Cools s (resetAct s) := fun _ =>
  (coolingOk_iff _).mpr
    ⟨Cooling.reset_ok _, by simp [State.cfg, resetAct, State.reset, Cfg.blank], fun _ => rfl⟩

theorem cools_serve (s : State) : Cools s (serve s) := .of_only (serve_only s) (by simp)

theorem cools_requestStatus (s : State) : Cools s (requestStatus s) :=
  .of_only (requestStatus_only s) (by simp)

theorem cools_refuseEntry (i : LineNo) (st : LineState) (s : State) : Cools s (refuseEntry i st s) := by
  obtain ⟨-, -, -, honly⟩ := refuseEntry_spec i st s
  exact .of_only honly (by simp)

theorem cools_endIfPouring (i : LineNo) (reason : EndReason) (s : State) :
    Cools s (endIfPouring i reason s) :=
  .of_only (endIfPouring_others i reason s).2 (by simp)

end cools

/-! ## The events of the Cooling Controller -/

section events

variable (s : State)

/-- A sample takes the code, tests the warm hold, and computes the demand and the grant afresh (R135). -/
theorem sampled_ok (c : BitVec 12) (h : s.cool.Ok s.cfg.cap) (hfault : s.cfg.dfault ≤ 255) :
    (sampled c s).cool.Ok s.cfg.cap := by
  obtain ⟨hcfg, -, -⟩ := coded_reads c s
  have hstamped : ({ s.cool with sampleFrom := some s.now } : Cooling).Ok s.cfg.cap := { h with }
  have hcoded : (coded c s).cool.Ok s.cfg.cap := coded_cool c s ▸ hstamped.sensed c s.cfg
  have hwarm : ({ (coded c s).cool with warmHold := warmAfter (coded c s) } : Cooling).Ok s.cfg.cap :=
    { hcoded with }
  change (tested (coded c s)).Ok s.cfg.cap
  rw [tested, hcfg]
  exact hwarm.granted (demandNow_le (hcfg.symm ▸ hfault)) demandNow_coolOff _

theorem cools_sample (c : BitVec 12) : Cools s (sample c s) := by
  have hsampled : Cools s (sampled c s) := fun h => by
    obtain ⟨-, hfault, -⟩ := (coolingOk_iff s).mp h
    exact Cools.of_frame (sampled_frame c s) (by simp) (fun hok => sampled_ok s c hok hfault) h
  rw [sample_eq]
  exact .after (.of_only (servedIf_only _ _) (by simp))
    (.after (.of_only (relampAll_only _) (by simp)) hsampled)

/-- The grant is computed again from the demand held (R143). -/
theorem cools_staleRegrant : Cools s (staleRegrant s) := by
  have hregrant : Cools s (regrant s) := by
    rw [regrant_eq]
    exact .of_cool (fun h => h.granted h.demand (fun hoff => (h.coolOff hoff).1) _) rfl id
  rw [staleRegrant_served]
  exact hregrant.trans (.of_only (servedIf_only _ _) (by simp))

theorem cools_glycolFrame : Cools s (glycolFrame s) := .of_cool (fun h => h.latch _) rfl id

/-- GLY off is consistent with every demand (R145). -/
theorem cools_glycolOff : Cools s { s with cool := { s.cool with gly := false } } :=
  .of_cool (fun h => { h with coolOff := fun hoff => ⟨(h.coolOff hoff).1, rfl⟩ }) rfl id

end events

end Sys2Proof.Machine

/-! SUPPORT. The operations outside the Cooling Controller keep its figures: they leave it, or set and clear
cool-off (R147). -/

namespace Sys2Proof.Machine

/-! ## Cleaning -/

section cleaning

variable (s : State)

/-- Cool-off follows the COOL-OFF output of the step entered (R147, R162). -/
theorem enterStep_cool (n runFrom : Nat) :
    (enterStep n runFrom s).cool = coolWith (s.stepAt n).outputs.coolOff s.cool := by
  obtain ⟨g, hg⟩ : ∃ g, g = applyFaucets (s.stepAt n).outputs.faucets
    (modClean (fun c => { c with out := (s.stepAt n).outputs }) (modClean (fun c => { c with
      progress := some { step := n, phase := .dwell, stepFrom := s.now, runFrom },
      stepCounts := Vector.replicate 8 0,
      flags := { c.flags with volume := (s.stepAt n).pulses = 0 } }) s)) := ⟨_, rfl⟩
  have hcool : g.cool = s.cool := hg ▸ applyFaucets_only _ _ .cool (by simp)
  rw [← hcool]
  exact (coolOff_served _ g (by rw [hg]; rfl)).1

theorem cools_enterStep (n runFrom : Nat) : Cools s (enterStep n runFrom s) := by
  have honly := (enterStep_spec n runFrom s).2
  exact .of_frame honly (by simp) fun h => enterStep_cool s n runFrom ▸ h.coolWith _

/-- Cool-off ends with the run (R147, R182). -/
theorem cools_runOff : Cools s (runOff s) := by
  obtain ⟨-, hcool, -, -, honly⟩ := runOff_spec s
  exact .of_frame honly (by simp) fun h => hcool ▸ h.coolWith false

theorem cools_writeClean (j : Job) (result : RunResult) (last : Option Nat) :
    Cools s (writeClean j result last s) := .of_only (writeClean_spec j result last s).2 (by simp)

theorem cools_returnSlots : Cools s (returnSlots s) := .of_only (returnSlots_frame s).2 (by simp)

theorem cools_endRunning (result : RunResult) : Cools s (endRunning result s) := by
  cases hjob : s.clean.job with
  | none => simp only [endRunning, hjob]; exact .refl s
  | some j =>
    cases hprog : s.clean.progress with
    | none => simp only [endRunning, hjob, hprog]; exact .refl s
    | some p =>
      have hwaste : ∀ i u, Cools u (wasteLine j i u) := fun i u => by
        obtain ⟨⟨-, -, -, -, honly⟩, -⟩ := wasteLine_spec j i u
        exact .of_only honly (by simp)
      have hrelease : ∀ i u, Cools u (releaseLine (result != .completed) i u) := fun i u =>
        .of_only (releaseLine_spec _ i u).2.2.2 (by simp)
      have hover : ∀ u, Cools u (runOver u) := fun u =>
        .after (cools_raise _) (.after (cools_requestStatus _) (.of_eq rfl rfl id))
      rw [endRunning_eq result hjob hprog]
      exact .after (hover _) (.after (cools_overLines hrelease _ _) (.after (cools_returnSlots _)
        (.after (cools_writeClean _ _ _ _) (.after (cools_overLines hwaste _ _) (cools_runOff s)))))

theorem cools_endEarly : Cools s (endEarly s) := by
  unfold endEarly
  split
  · next j _ =>
    have hlines : Cools s (overLines withdrawOrRelease (linesOf j.lines) s) :=
      cools_overLines (fun i u => .of_only (withdrawOrRelease_spec i u).2.2 (by simp)) _ s
    have hidle : ∀ u, Cools u (goIdle u) := fun u => cools_modClean _
    have hended := Cools.after (hidle _) (.after (cools_returnSlots _)
      (.after (cools_writeClean _ j .aborted none) hlines))
    exact .after (cools_raise _) (.ite (.after (cools_requestStatus _) hended) hended)
  · exact .refl s

theorem cools_abortRun : Cools s (abortRun s) := by
  unfold abortRun
  split
  · exact .refl s
  · exact cools_endEarly s
  · exact cools_endEarly s
  · exact cools_endRunning s _

theorem cools_takeNext (p : Progress) : Cools s (takeNext p s) := by
  unfold takeNext
  split
  · exact cools_enterStep s _ _
  · exact cools_endRunning s _

theorem cools_takeFaultNext (p : Progress) : Cools s (takeFaultNext p s) := by
  unfold takeFaultNext
  split
  · exact cools_enterStep s _ _
  · exact cools_endRunning s _

theorem cools_afterFlagChange : Cools s (afterFlagChange s) := by
  unfold afterFlagChange
  split
  · exact .ite (cools_takeNext s _) (.refl s)
  · exact .refl s

theorem cools_singleExpiry (p : Progress) : Cools s (singleExpiry p s) :=
  .ite (cools_takeNext s p) (cools_takeFaultNext s p)

theorem cools_dwellExpires (p : Progress) : Cools s (dwellExpires p s) := by
  unfold dwellExpires
  simp only
  split
  · exact .refl s
  · exact .ite (cools_singleExpiry s p) (.ite (cools_takeNext s p) (cools_modClean _))

theorem cools_limitExpires (p : Progress) : Cools s (limitExpires p s) := by
  unfold limitExpires
  refine .ite (.refl s) ?_
  split
  · exact cools_takeFaultNext s p
  · exact .ite (cools_singleExpiry s p) (.refl s)

theorem cools_stepEvent {f : Progress → State → State} (h : ∀ p, Cools s (f p s)) :
    Cools s (stepEvent f s) := by
  unfold stepEvent
  split
  · exact h _
  · exact .refl s

theorem cools_cleaningPulse (i : LineNo) (p : Progress) : Cools s (cleaningPulse i p s) :=
  .ite (.after (cools_afterFlagChange _) (.of_eq rfl rfl id)) (.of_eq rfl rfl id)

theorem cools_checkPrepared : Cools s (checkPrepared s) :=
  .ite (.of_only (enterClaiming_spec s).2.2 (by simp)) (.refl s)

theorem cools_enterRunning : Cools s (enterRunning s) := by
  cases hjob : s.clean.job with
  | none => simp only [enterRunning, hjob]; exact .refl s
  | some j =>
    have hactivate : ∀ i u, Cools u (activate i u) := fun i u =>
      .of_only (activate_frame i u).2 (by simp)
    rw [enterRunning_eq hjob]
    exact .after (cools_enterStep _ _ _) (.after (cools_modClean _) (.after (cools_requestStatus _)
      (.after (cools_overLines hactivate _ _) (cools_modClean _))))

theorem cools_evaluateClaim : Cools s (evaluateClaim s) :=
  .ite (.ite (.after (cools_enterRunning _) (cools_modClean _)) (cools_modClean _)) (.refl s)

end cleaning

/-! ## The tower -/

section tower

variable (i : LineNo) (s : State)

theorem cools_endPour (reason : EndReason) : Cools s (endPour i reason s) := by
  cases hp : (s.line i).pour with
  | none => simp only [endPour, hp]; exact .refl s
  | some p => exact .of_only (endPour_spec i reason s p hp).2.2 (by simp)

theorem cools_pourPulse (p : PourCtx) : Cools s (pourPulse i p s) := by
  unfold pourPulse
  simp only
  split
  · split
    · exact .after (.of_only (setEmpty_only _ _) (by simp)) (.after (cools_endPour i _ _) (cools_setLine i _))
    · exact .after (cools_endPour i _ _) (cools_setLine i _)
    · exact cools_setLine i _
  · exact cools_setLine i _

theorem cools_creepPulse : Cools s (creepPulse i s) := by
  have hlocked : ∀ u, Cools u (setLock i .leak u) := fun u =>
    .of_only (setLock_spec i .leak u).2.2.2 (by simp)
  unfold creepPulse
  simp only
  split
  · split
    · exact .after (.of_only (setState_spec i _ _).2.2 (by simp)) (.after (hlocked _) (cools_setLine i _))
    · exact .after (cools_refuseEntry i _ _) (.after (hlocked _) (cools_setLine i _))
    · exact cools_setLine i _
  · exact cools_setLine i _

theorem cools_takePulse : Cools s (takePulse i s) := by
  unfold takePulse
  simp only
  split
  · exact .refl s
  · split
    case h_1 | h_2 =>
      split
      · exact cools_pourPulse i s _
      · exact .refl s
    case h_3 => exact cools_stepEvent s (cools_cleaningPulse s i)
    case h_4 => exact cools_creepPulse i s

theorem cools_request (kind : StartKind) : Cools s (request i kind s) :=
  .of_only (request_only i kind s) (by simp)

theorem cools_complete (p : PourCtx) : Cools s (complete i p s) := by
  obtain ⟨-, -, -, -, -, -, -, -, hbook⟩ := bookPour_spec i p s
  have hsettle : ∀ u, Cools u (afterCompletion i p u) := fun u =>
    .of_only (afterCompletion_spec i p u).2.2.2.1 (by simp)
  have hpresent : ∀ u, Cools u (presentRemembered i u) := by
    intro u
    unfold presentRemembered
    simp only
    split
    · exact .after (cools_request i _ _) (cools_setLine i _)
    · exact .refl u
  rw [complete_eq]
  exact .after (hpresent _) (.after (cools_serve _) (.after (hsettle _) (.of_only hbook (by simp))))

theorem cools_pressHandle : Cools s (pressHandle i s) := by
  unfold pressHandle
  refine .ite (.refl s) ?_
  split
  case h_5 => exact cools_request i s .handle
  all_goals exact .of_eq rfl rfl id

theorem cools_releaseHandle : Cools s (releaseHandle i s) := by
  unfold releaseHandle
  refine .ite (.refl s) ?_
  split
  · exact .ite (.of_eq rfl rfl id) (.refl s)
  · exact .ite (cools_endPour i s _) (.refl s)
  · exact .refl s

theorem cools_pressKey (k : Key) : Cools s (pressKey i k s) := by
  unfold pressKey
  split
  case h_5 => exact cools_request i s _
  case h_6 => exact .ite (cools_setLine i _) (.refl s)
  all_goals exact .of_eq rfl rfl id

end tower

/-! ## The cellar link -/

section link

variable (s : State)

theorem cools_takeChange (b : ChangeBody) : Cools s (takeChange b s) := by
  unfold takeChange
  split
  · simp only
    split
    · exact .of_only (adopt_only _ _ _ _ s) (by simp)
    · exact .after (.of_only (lowTest_only _ _) (by simp)) (.of_eq rfl rfl id)
    · exact .refl s
  · exact .refl s

theorem cools_duplicateStation : Cools s (duplicateStation s) := by
  unfold duplicateStation
  exact .after (cools_raise _) (.ite (.refl s) (.ite (cools_modLink _) (.of_eq rfl rfl id)))

theorem cools_arriveFrame (f : LinkFrame) : Cools s (arriveFrame f s) := by
  have hhand : ∀ u, Cools u (handFrame f u) := by
    intro u
    unfold handFrame
    refine .ite (cools_duplicateStation u) ?_
    split
    · exact cools_takeChange u _
    · split
      · rw [applyStatus_eq]
        exact .after (cools_evaluateClaim _) (.of_only (statusTaken_only _ _) (by simp))
      · exact .refl u
  exact .ite (.after (hhand _) (cools_modLink _)) (cools_modLink _)

theorem cools_startAttempt : Cools s (startAttempt s) := by
  unfold startAttempt
  split
  · split
    · exact cools_modLink _
    · exact .refl s
  · exact .refl s

theorem cools_collide : Cools s (collide s) := by
  have hdrop : ∀ kind u, Cools u (dropFrame kind u) := fun kind u => by
    cases kind <;> exact .of_eq rfl rfl id
  unfold collide
  split
  · exact .ite (.after (hdrop _ _) (cools_modLink _)) (.of_eq rfl rfl id)
  · exact .refl s

theorem cools_succeed : Cools s (succeed s) := by
  have hstatus : ∀ u, Cools u (statusSuccess u) := fun u =>
    .ite (.after (cools_evaluateClaim _) (cools_modClean _)) (.refl u)
  have hselect : ∀ u, Cools u (selectFrame u) := fun u => .of_eq rfl rfl id
  unfold succeed
  split
  · exact .after (hselect _) (.ite (.after (hstatus _) (cools_modLink _)) (cools_modLink _))
  · exact .refl s

theorem cools_takeChar (v : Byte) (err : Bool) : Cools s (takeChar v err s) := by
  unfold takeChar
  split
  · exact .refl s
  · exact .refl s
  · exact .ite (cools_modLink _) (.ite (cools_modLink _) (cools_modLink _))
  · split
    · exact cools_modLink _
    · exact cools_modLink _
    · exact cools_arriveFrame s _
  · split
    · exact .ite (cools_collide s) (.ite (cools_succeed s) (cools_modLink _))
    · exact .refl s

end link

end Sys2Proof.Machine

/-! SUPPORT. Every command and event keeps the figures of the Cooling Controller, and the statement (R134, R144,
R145, R147). -/

namespace Sys2Proof.Machine

/-! ## The commands of the station -/

section station

variable (s : State)

/-- CONFIGURE finds no grant under the limit of an absent configuration, and starts a glycol frame (R145,
R192). -/
theorem cools_acceptImage (img : List Byte) (hs : s.station = .unconfigured) :
    Cools s (acceptImage img s) := by
  obtain ⟨u, hu⟩ : ∃ u, u = modLink (fun k => { k with
      rx := .discard, idleFrom := some s.now, announceFrom := some s.now })
    { s with config := some (loadCfg img), station := .stopped, seconds := 0, secondFrom := some s.now } :=
    ⟨_, rfl⟩
  have hloaded : Cools s u := by
    intro h
    obtain ⟨hok, -, hnone⟩ := (coolingOk_iff s).mp h
    have hcap : s.cfg.cap = 0 := by simp [State.cfg, hnone hs, Cfg.blank]
    rw [coolingOk_iff, hu]
    exact ⟨Cooling.Ok.mono (hcap ▸ hok) (Nat.zero_le _), Nat.le_of_lt_succ (imgByte img 13).isLt, by simp⟩
  have hsample : ∀ v : State, Cools v { v with cool := { v.cool with sampleFrom := some s.now } } :=
    fun _ => .of_cool (fun h => { h with }) rfl id
  have e : acceptImage img s = glycolFrame { requestStatus u with
      cool := { (requestStatus u).cool with sampleFrom := some s.now } } := by rw [hu]; rfl
  rw [e]
  exact .after (cools_glycolFrame _) (.after (hsample _) (.after (cools_requestStatus u) hloaded))

theorem cools_configureBody (img : List Byte) : Cools s (configureBody img s).1 := by
  unfold configureBody
  split
  · exact .refl s
  next hs =>
    split
    · exact .refl s
    · exact cools_acceptImage s img (not_not.mp hs)

theorem cools_startBody : Cools s (startBody s).1 := by
  unfold startBody
  split
  · exact .refl s
  · simp only [accept]
    obtain ⟨hrunning, -, honly, -⟩ := startStation_spec s
    exact .of_eq (honly .cool (by simp)) (honly .config (by simp)) (by simp [hrunning])

theorem cools_stopBody : Cools s (stopBody s).1 := by
  have hstopped : Cools s { s with station := .stopped } := .of_eq rfl rfl (by simp)
  have htower : Cools s (closeTower s) :=
    .after (cools_overLines (cools_endIfPouring · .stopped) _ _)
      (.after (cools_overLines (cools_refuseEntry · .off) _ _) hstopped)
  have hlines : ∀ u, Cools u (overLines stopLine allLines u) :=
    cools_overLines (fun i u => .of_only (stopLine_spec i u).2.2 (by simp)) _
  have hleave : leaveRunning s = overLines stopLine allLines (abortRun (closeTower s)) := rfl
  unfold stopBody
  split
  · exact .refl s
  · simp only [accept, hleave]
    exact .after (cools_requestStatus _) (.after (hlines _) (.after (cools_abortRun _) htower))

theorem cools_readLineBody (line : Byte) : Cools s (readLineBody line s).1 := by
  unfold readLineBody
  refine .answer (.refl s) ?_
  split <;> exact .refl s

theorem cools_readSourceBody (source : Byte) : Cools s (readSourceBody source s).1 := by
  unfold readSourceBody
  refine .answer (.refl s) ?_
  split <;> exact .refl s

theorem cools_readPeerBody (station : Byte) : Cools s (readPeerBody station s).1 := by
  unfold readPeerBody
  refine .answer (.refl s) ?_
  split
  · exact .refl s
  · split <;> exact .refl s

theorem cools_readLinkBody : Cools s (readLinkBody s).1 := .answer (.refl s) (cools_modLink _)

end station

/-! ## The commands of the four jobs -/

section jobs

variable (s : State)

theorem cools_takeRecordBody : Cools s (takeRecordBody s).1 := by
  unfold takeRecordBody
  refine .answer (.refl s) ?_
  split
  · exact .refl s
  · exact .after (cools_serve _) (.of_eq rfl rfl id)

theorem cools_orderBody (line : Byte) (tag volume : BitVec 16) :
    Cools s (orderBody line tag volume s).1 := by
  unfold orderBody
  split
  · exact .refl s
  · exact .answer (.refl s) (.answer (.refl s) (.answer (.refl s) (cools_setLine _ _)))

theorem cools_cancelBody (line : Byte) (tag : BitVec 16) : Cools s (cancelBody line tag s).1 := by
  unfold cancelBody
  split
  · exact .refl s
  · exact .answer (.refl s) (.answer (cools_setLine _ _)
      (.answer (.answer (cools_endPour _ s _) (.refl s)) (.refl s)))

theorem cools_pourStopBody (line : Byte) : Cools s (pourStopBody line s).1 := by
  unfold pourStopBody
  refine .answer (.refl s) ?_
  split
  · exact .refl s
  · split
    · exact cools_endPour _ s _
    · exact cools_refuseEntry _ _ s
    · exact cools_setLine _ _
    · exact .refl s

theorem cools_unlockBody (line : Byte) : Cools s (unlockBody line s).1 := by
  unfold unlockBody
  refine .answer (.refl s) ?_
  split
  · exact .refl s
  · exact .answer (.refl s) (.of_only (clearLock_spec _ s).2.2 (by simp))

/-- A working gain is nothing that the cooling reads (R49). -/
theorem cools_setGain (i : LineNo) (g : Int) : Cools s (setGain i g s) := by
  cases hc : s.config with
  | none => exact .of_eq rfl (by simp [setGain, hc]) id
  | some c =>
    rw [setGain_loaded i g hc, Cools, coolingOk_iff, coolingOk_iff]
    simp only [State.cfg, hc]
    exact fun ⟨hok, hfault, hnone⟩ => ⟨hok, hfault, fun hs => absurd (hnone hs) (by simp)⟩

theorem cools_calibrateBody (line : Byte) (va : BitVec 32) : Cools s (calibrateBody line va s).1 := by
  unfold calibrateBody
  refine .answer (.refl s) ?_
  split
  · exact .refl s
  · refine .answer (.refl s) ?_
    split
    · exact .refl s
    · exact .answer (.refl s) (cools_setGain s _ _)

theorem cools_sourceChangeBody (source : Byte) (full : BitVec 32) :
    Cools s (sourceChangeBody source full s).1 := by
  unfold sourceChangeBody
  refine .answer (.refl s) ?_
  split
  · exact .refl s
  · exact .answer (.refl s) (.answer (.refl s)
      (.of_only (changedSource_spec source full _ s).2.2 (by simp)))

theorem cools_clearMuteBody : Cools s (clearMuteBody s).1 :=
  .answer (.refl s) (.after (cools_requestStatus _) (cools_modLink _))

theorem cools_acceptRun (entry : Nat) (lines : Byte) : Cools s (acceptRun entry lines s) := by
  have hreserve : ∀ i u, Cools u (reserveLine i u) := fun i u =>
    .of_only (reserveLine_frame i u).2 (by simp)
  exact .after (cools_checkPrepared _) (.after (cools_modClean _)
    (.after (cools_overLines hreserve _ _) (.of_eq rfl rfl id)))

theorem cools_cleanStartBody (entry lines : Byte) : Cools s (cleanStartBody entry lines s).1 :=
  .answer (.refl s) (.answer (.refl s) (.answer (.refl s) (.answer (.refl s)
    (.answer (.refl s) (cools_acceptRun s _ _)))))

theorem cools_cleanAbortBody : Cools s (cleanAbortBody s).1 := .answer (.refl s) (cools_abortRun s)

end jobs

/-! ## Every command and event -/

section events

variable {s t : State}

/-- A command period marks an overrun, resets, or executes its command (R188, R189, R193). -/
theorem cools_command {body : State → State × Answer} (h : ∀ s, Cools s (body s).1) :
    Cools s (command body s) := by
  have hbegin : Cools s (beginCommand s) := .of_eq rfl rfl id
  have hprepare : ∀ a u, Cools u (prepare a u) := fun _ _ => .of_eq rfl rfl id
  exact cools_powered (.ite (.of_eq rfl rfl id) (.ite (cools_resetAct s)
    ((hbegin.trans (h _)).trans (hprepare _ _))))

theorem cools_readOut (n : Nat) : Cools s (readOut n s) := by
  have hport : ∀ (u : State) (p : Port), Cools u { u with port := p } := fun _ _ => .of_eq rfl rfl id
  unfold readOut
  exact .after (hport _ _) (.ite (cools_resetAct s) (hport s _))

/-- An event whose outcome is a next state keeps what its operation keeps. -/
theorem cools_event {f : State → State}
    (h : (Host.Outcome.next (powered s f) : Host.Outcome State Fault Refusal) = .next t)
    (hf : Cools s (f s)) : Cools s t :=
  Host.Outcome.next.inj h ▸ cools_powered hf

theorem cools_body {body : State → State × Answer}
    (h : (Host.Outcome.next (command body s) : Host.Outcome State Fault Refusal) = .next t)
    (hb : ∀ s, Cools s (body s).1) : Cools s t :=
  Host.Outcome.next.inj h ▸ cools_command hb

theorem cools_execPeerExpiry (station : Byte) (h : execPeerExpiry station s = .next t) : Cools s t := by
  refine cools_event h ?_
  split
  · exact .refl s
  · split
    · exact .refl s
    · exact .ite (.after (cools_evaluateClaim _) (.after (cools_staleRegrant _) (.of_eq rfl rfl id))) (.refl s)

theorem cools_execPourCompletion (i : LineNo) (h : execPourCompletion i s = .next t) : Cools s t := by
  refine cools_event h ?_
  split
  · exact cools_complete i s _
  · exact .refl s

theorem cools_execValveHoldDrive (i : LineNo) (h : execValveHoldDrive i s = .next t) : Cools s t := by
  refine cools_event h ?_
  split
  · exact cools_setLine i _
  · exact .refl s

theorem cools_execIdleGapExpiry (h : execIdleGapExpiry s = .next t) : Cools s t := by
  refine cools_event h ?_
  split
  · exact cools_modLink _
  · exact cools_modLink _
  · exact .refl s

theorem cools_execResponseReady (h : execResponseReady s = .next t) : Cools s t := by
  refine cools_event h ?_
  split
  · exact .of_eq rfl rfl id
  · exact .refl s

/-- Every command and event keeps the cooling as its rules give it. -/
theorem cools_exec (c : Instr) (h : exec c s = .next t) : Cools s t := by
  cases c with
  | configure image => exact cools_body h fun s => cools_configureBody s image
  | start => exact cools_body h cools_startBody
  | stop => exact cools_body h cools_stopBody
  | reset => exact cools_body h fun _ => .of_eq rfl rfl id
  | readStatus => exact cools_body h .refl
  | readLine line => exact cools_body h fun s => cools_readLineBody s line
  | readSource source => exact cools_body h fun s => cools_readSourceBody s source
  | readPeer station => exact cools_body h fun s => cools_readPeerBody s station
  | readLink => exact cools_body h cools_readLinkBody
  | readAttention => exact cools_body h fun _ => .of_eq rfl rfl id
  | takeRecord => exact cools_body h cools_takeRecordBody
  | order line tag volume => exact cools_body h fun s => cools_orderBody s line tag volume
  | cancel line tag => exact cools_body h fun s => cools_cancelBody s line tag
  | pourStop line => exact cools_body h fun s => cools_pourStopBody s line
  | unlock line => exact cools_body h fun s => cools_unlockBody s line
  | calibrate line va => exact cools_body h fun s => cools_calibrateBody s line va
  | sourceChange source full => exact cools_body h fun s => cools_sourceChangeBody s source full
  | cleanStart entry lines => exact cools_body h fun s => cools_cleanStartBody s entry lines
  | cleanAbort => exact cools_body h cools_cleanAbortBody
  | clearMute => exact cools_body h cools_clearMuteBody
  | commandNotExecuted => exact cools_body h .refl
  | readPeriod bytes => exact cools_event h (.ite (.refl s) (cools_readOut bytes))
  | responseReady => exact cools_execResponseReady h
  | resetResponseTimeout => exact cools_event h (.ite (cools_resetAct s) (.refl s))
  | rstnAssert => exact Host.Outcome.next.inj h ▸ (cools_resetAct s).trans (.of_eq rfl rfl id)
  | rstnRelease => exact Host.Outcome.next.inj h ▸ cools_resetAct s
  | portReadyAfterReset => exact cools_event h (.ite (.of_eq rfl rfl id) (.refl s))
  | handlePress i =>
    exact cools_event h (.ite (.after (cools_pressHandle i _) (cools_setLine i _)) (cools_setLine i _))
  | handleRelease i =>
    exact cools_event h (.ite (.after (cools_releaseHandle i _) (cools_setLine i _)) (cools_setLine i _))
  | keyPress i k =>
    exact cools_event h (.ite (.after (cools_pressKey i _ k) (cools_setLine i _)) (cools_setLine i _))
  | keyEntryExpiry i => exact cools_event h (.ite (cools_refuseEntry i _ s) (.refl s))
  | refuseFlashEnd i =>
    exact cools_event h (.ite (.after (.of_only (relamp_only i _) (by simp)) (cools_setLine i _)) (.refl s))
  | valveHoldDrive i => exact cools_execValveHoldDrive i h
  | meterPulse i => exact cools_event h (.after (cools_takePulse i _) (cools_setLine i _))
  | noFlowExpiry i => exact cools_event h (cools_endIfPouring i _ s)
  | pourTimerExpiry i => exact cools_event h (cools_endIfPouring i _ s)
  | pourCompletion i => exact cools_execPourCompletion i h
  | stationSecondsTick => exact cools_event h (.ite (.refl s) (.of_eq rfl rfl id))
  | validFrameArrival frame => exact cools_event h (.ite (cools_arriveFrame s frame) (.refl s))
  | frameDiscarded check => exact cools_event h (.ite (cools_modLink _) (.refl s))
  | idleGapExpiry => exact cools_execIdleGapExpiry h
  | announcementTimerExpiry =>
    exact cools_event h (.ite (.refl s) (.after (cools_requestStatus _) (cools_modLink _)))
  | accessWaitExpiry => exact cools_event h (.ite (.refl s) (cools_startAttempt s))
  | collision => exact cools_event h (cools_collide s)
  | transmitSuccess => exact cools_event h (cools_succeed s)
  | peerExpiry station => exact cools_execPeerExpiry station h
  | sensorSample code => exact cools_event h (.ite (.refl s) (cools_sample s code))
  | glycolFrameStart => exact cools_event h (.ite (.refl s) (cools_glycolFrame s))
  | glycolOnTimeEnd => exact cools_event h (cools_glycolOff s)
  | conditionPinChange pin level =>
    exact cools_event h (.ite (.refl s) (.after (cools_afterFlagChange _) (cools_modClean _)))
  | flowTimeout =>
    exact cools_event h (cools_stepEvent s fun _ =>
      .ite (.after (cools_afterFlagChange _) (cools_modClean _)) (.refl s))
  | dwellExpiry => exact cools_event h (cools_stepEvent s (cools_dwellExpires s))
  | limitExpiry => exact cools_event h (cools_stepEvent s (cools_limitExpires s))
  | runLimitExpiry => exact cools_event h (cools_stepEvent s fun _ => cools_endRunning s .failed)
  | characterStart => exact cools_event h (.ite (.refl s) (cools_modLink _))
  | characterTaken value err => exact cools_event h (cools_takeChar s value err)
  | lampBlinkPhase i => exact cools_event h (.ite (cools_setLine i _) (.refl s))

/-- The queue, the clock and the input stages leave the cooling. -/
theorem cools_step (h : step s = .next t) : Cools s t := by
  cases hp : s.pending with
  | cons c rest =>
    simp only [step, hp] at h
    exact .after (cools_exec c h) (.of_eq rfl rfl id)
  | nil =>
    simp only [step, hp, idleStep] at h
    cases hd : due s with
    | some c =>
      rw [hd] at h
      exact .after (cools_exec c h) (.of_only (settleReceiver_only c s) (by simp))
    | none =>
      rw [hd] at h
      exact Host.Outcome.next.inj h ▸ .of_only (tick_only s) (by simp)

end events

/-- Settles O55: the events of the Cooling Controller keep its figures in their bounds, and every other
operation leaves them, or sets and clears cool-off. -/
theorem coolingKept : Obligations.CoolingKept := fun _ _ hs h => cools_step h hs

end Sys2Proof.Machine

/-! SUPPORT. The end of a run from RUNNING whatever the list holds: the walk with the slots returned, and the
lines released (R13, R78, R182, R184). -/

namespace Sys2Proof.Machine

/-! ## What the walk reads of the sources and of cooling -/

/-- Two states agree in what the walk reads of their sources and of cooling (R9, R14). -/
structure ReadsAlike (c s : State) : Prop where
  empty : ∀ x, (c.source x).empty = (s.source x).empty
  warm : c.cool.warmHold = s.cool.warmHold
  starved : c.cool.starved = s.cool.starved

/-- A state with the sources, the attention set, cooling and the sequencer of another: the walk writes none of
these. -/
def withFiguresOf (c s : State) : State :=
  { s with sources := c.sources, attn := c.attn, cool := c.cool, clean := c.clean }

section walk

variable {c s : State}

theorem ReadsAlike.of_only {t : State} {ps : List Part} (h : ReadsAlike c s) (ht : Only ps s t)
    (hps : Part.sources ∉ ps ∧ Part.cool ∉ ps) : ReadsAlike c t := by
  obtain ⟨hempty, hwarm, hstarved⟩ := h
  have hcool : t.cool = s.cool := ht .cool hps.2
  exact ⟨fun x => by rw [hempty, source_congr (ht .sources hps.1)], by rw [hwarm, hcool],
    by rw [hstarved, hcool]⟩

theorem ReadsAlike.sameReads (h : ReadsAlike c s) : SameReads s (withFiguresOf c s) :=
  ⟨fun _ => rfl, sourceEmpty_congr rfl h.empty, h.warm⟩

theorem relamp_withFiguresOf (h : ReadsAlike c s) (i : LineNo) :
    relamp i (withFiguresOf c s) = withFiguresOf c (relamp i s) := by
  unfold relamp
  rw [lampPattern_of_reads h.sameReads rfl rfl]
  rfl

theorem refuseEntry_withFiguresOf (h : ReadsAlike c s) (i : LineNo) (st : LineState) :
    refuseEntry i st (withFiguresOf c s) = withFiguresOf c (refuseEntry i st s) :=
  relamp_withFiguresOf ((h.of_only (removeStart_only i s) (by simp)).of_only (setLine_only _ i _) (by simp)) i

theorem beginPour_withFiguresOf (h : ReadsAlike c s) (i : LineNo) (kind : StartKind) :
    beginPour i kind (withFiguresOf c s) = withFiguresOf c (beginPour i kind s) := by
  unfold beginPour
  exact relamp_withFiguresOf (s := State.setLine { s with
    journal := { s.journal with reserved := s.journal.reserved + 1 }, pours := s.pours + 1 } i _)
    ⟨h.empty, h.warm, h.starved⟩ i

/-- The walk goes the same way, whatever the figures that it doesn't read (R14). -/
theorem serveList_withFiguresOf (es : List StartEntry) (h : ReadsAlike c s) :
    serveList es (withFiguresOf c s) = withFiguresOf c (serveList es s) := by
  induction es generalizing s with
  | nil => rfl
  | cons e rest ih =>
    have hun : unstartable (withFiguresOf c s) e.line = unstartable s e.line :=
      congrArg (· || _) (h.sameReads.empty e.line)
    have hhold : stationHold (withFiguresOf c s) = stationHold s := by
      unfold stationHold paceExceeded
      rw [h.sameReads.warm, show (withFiguresOf c s).cool.starved = s.cool.starved from h.starved]
      rfl
    have hremoved : ReadsAlike c (removeStart e.line s) := h.of_only (removeStart_only _ s) (by simp)
    simp only [serveList, hun, hhold]
    split
    · rw [refuseEntry_withFiguresOf h,
        ih (h.of_only (refuseEntry_spec e.line .ready s).2.2.2 (by simp))]
    · split
      · rfl
      · rw [show removeStart e.line (withFiguresOf c s) = withFiguresOf c (removeStart e.line s) from rfl,
          beginPour_withFiguresOf hremoved,
          ih (hremoved.of_only (beginPour_only e.line e.kind _) (by simp))]

/-- Two states that differ on lines aside and in figures that the walk doesn't read are served alike. -/
theorem servedAs_servedIf {aside : List LineNo} {v w : State} (h : Apart aside v (withFiguresOf v w))
    (hw : ReadsAlike w v) (hes : ∀ e ∈ v.starts, e.line ∉ aside) (b : Bool) :
    ServedAs aside (servedIf b v) (servedIf b w) := by
  cases b with
  | false => exact h.servedAs
  | true =>
    have hserve : serve w = withFiguresOf w (serveList v.starts (withFiguresOf v w)) :=
      (congrArg (serveList · w) h.starts).trans
        (serveList_withFiguresOf (s := withFiguresOf v w) v.starts ⟨hw.empty, hw.warm, hw.starved⟩)
    obtain ⟨hlines, hstarts, hpours, hjournal⟩ := (h.serveList hes).servedAs
    show ServedAs aside (serve v) (serve w)
    rw [hserve]
    exact ⟨hlines, hstarts, hpours, hjournal⟩

/-- The walk writes no record and leaves a line without a start pending (R14, R78). -/
theorem servedIf_leaves (b : Bool) (s : State) :
    (servedIf b s).journal.records = s.journal.records ∧
      ∀ i, i ∉ s.starts.map StartEntry.line → (servedIf b s).line i = s.line i := by
  cases b with
  | false => exact ⟨rfl, fun _ _ => rfl⟩
  | true => exact ⟨(serveList_records _ s).1, fun i hi => serveList_others hi s⟩

end walk

/-! ## The slots returned -/

/-- What a run in RUNNING holds (R27, R67): its slots, and its lines without a start pending. -/
structure RunHeld (j : Job) (s : State) : Prop where
  job : s.clean.job = some j
  slots : s.clean.slots = 1 + (linesOf j.lines).length
  starts : ∀ e ∈ s.starts, e.line ∉ linesOf j.lines
  station : s.station ≠ .unconfigured

theorem RunHeld.selected {j : Job} {s : State} (h : RunHeld j s) : s.selected = linesOf j.lines := by
  simp only [State.selected, h.job]

theorem StationOk.runHeld {s : State} (h : StationOk s) (hr : s.clean.runState = .running) :
    ∃ j, RunHeld j s := by
  obtain ⟨-, ⟨-, -, hslots⟩, ⟨-, hwaiting⟩, ⟨hidle, -, hlines⟩, -, -, hshut⟩ := h
  obtain ⟨j, hj⟩ := Option.ne_none_iff_exists'.mp fun hnone => by
    have := hidle.mpr hnone
    simp [hr] at this
  have hsel : s.selected = linesOf j.lines := by simp only [State.selected, hj]
  refine ⟨j, hj, by rw [hslots, hj], fun e he hi => ?_, fun hs => ?_⟩
  · obtain ⟨hcleaning, -⟩ := hlines e.line
    have hw := (hwaiting e.line).mpr (List.mem_map_of_mem he)
    simp [hcleaning.mpr ⟨hr, by rwa [hsel]⟩] at hw
  · have hidle' := (hshut (by simp [hs])).1
    simp [hr] at hidle'

/-- The slots that a run holds, back in the journal (R67). -/
def slotsBack (s : State) : State :=
  modClean (fun c => { c with slots := 0 })
    { s with journal := { s.journal with reserved := s.journal.reserved - s.clean.slots } }

theorem returnSlots_eq (s : State) :
    returnSlots s = servedIf (decide (0 < s.clean.slots)) (slotsBack s) := by
  simp only [returnSlots, servedIf, slotsBack, decide_eq_true_eq]

theorem slotsBack_only (s : State) : Only [.journal, .clean] s (slotsBack s) := by
  intro p hp; cases p <;> simp_all [Part.same, slotsBack]

theorem slotsBack_journal {rs : List Record} {s w : State} (hj : w.journal =
      ⟨s.journal.records ++ rs, s.journal.reserved - rs.length, s.journal.seq + BitVec.ofNat 16 rs.length⟩)
    (hslots : w.clean.slots = s.clean.slots - rs.length) (hle : rs.length ≤ s.clean.slots) :
    (slotsBack w).journal = runJournal s rs := by
  show { w.journal with reserved := w.journal.reserved - w.clean.slots } = runJournal s rs
  rw [hj, hslots, runJournal, Journal.mk.injEq]
  exact ⟨rfl, by simp only; omega, rfl⟩

/-- The return of the slots serves the list as in the state before the records (R13, R78). -/
theorem servedAs_returnSlots {rs : List Record} {aside : List LineNo} {s w : State}
    (hsw : Only [.lines, .journal, .sources, .attn, .clean, .cool] s w) (hw : ReadsAlike w s)
    (hjournal : (slotsBack w).journal = runJournal s rs)
    (hslots : w.clean.slots = s.clean.slots - rs.length)
    (hout : ∀ i, i ∉ aside → w.line i = s.line i) (hes : ∀ e ∈ s.starts, e.line ∉ aside) :
    ServedAs aside (slotsReturned s rs) (returnSlots w) := by
  have hsb : Only [.lines, .journal, .sources, .attn, .clean, .cool] s (slotsBack w) :=
    hsw.trans ((slotsBack_only w).mono (by simp))
  have hleft : decide (0 < w.clean.slots) = decide (rs.length < s.clean.slots) := by
    rw [decide_eq_decide]; omega
  have hapart : Apart aside { s with journal := runJournal s rs }
      (withFiguresOf { s with journal := runJournal s rs } (slotsBack w)) := by
    refine ⟨fun q hq => ?_, hout⟩
    have hsame := hsb q
    cases q <;> simp_all [Part.same, withFiguresOf]
  rw [returnSlots_eq, hleft]
  exact servedAs_servedIf hapart ⟨hw.empty, hw.warm, hw.starved⟩ hes _

section ends

variable {result : RunResult} {j : Job} {p : Progress} {s : State}

/-- A run from RUNNING has written its records and returned its slots (R182 steps 1 to 3): the list is served as
in the state before, and the selected lines have their valves closed and no creep. -/
structure RecordsIn (rs : List Record) (j : Job) (s v : State) : Prop where
  clean : v.clean = { s.clean with progress := none, flowFrom := none, out := .none, slots := 0 }
  cool : v.cool = { s.cool with coolOff := false }
  drew : Drew rs s v
  wrote : Wrote s v
  lines : ∀ i ∈ linesOf j.lines, v.line i = { s.line i with valve := .closed, creep := 0 }
  served : ServedAs (linesOf j.lines) (slotsReturned s rs) v
  only : Only [.lines, .starts, .pours, .journal, .sources, .attn, .clean, .cool] s v

theorem recordsIn_returnSlots (result : RunResult) (p : Progress) (h : RunHeld j s) :
    RecordsIn (runRecords s j result p.step) j s (returnSlots (runWritten result j p s)) := by
  obtain ⟨hoclean, hocool, -, -, hoff⟩ := runOff_spec s
  obtain ⟨⟨hwj, hwc, hwd, hww, hwo⟩, hwin, hwout⟩ := runWritten_spec result p h.job
  have hle : (runRecords s j result p.step).length ≤ s.clean.slots := by
    rw [h.slots]; exact runRecords_length s j result p.step
  obtain ⟨hclean, hronly⟩ := returnSlots_frame (runWritten result j p s)
  have hslots : (runWritten result j p s).clean.slots =
      s.clean.slots - (runRecords s j result p.step).length := by rw [hwc, hoclean]
  have hreturned := returnSlots_eq (runWritten result j p s)
  generalize runWritten result j p s = w at *
  generalize runRecords s j result p.step = rs at *
  have hsw : Only [.lines, .journal, .sources, .attn, .clean, .cool] s w :=
    (hoff.mono (by simp)).trans (hwo.mono (by simp))
  have hdrew : Drew rs s w := hwd.congr (hoff .sources (by simp)).symm (hoff .config (by simp)).symm rfl rfl
  have hcool : w.cool = { s.cool with coolOff := false } := (hwo .cool (by simp)).trans hocool
  have halike : ReadsAlike w s := ⟨fun x => by rw [(hdrew x).1], by rw [hcool], by rw [hcool]⟩
  have hjournal : (slotsBack w).journal = runJournal s rs := slotsBack_journal
    (by rw [hwj, show (runOff s).journal = s.journal from hoff .journal (by simp)]) hslots hle
  obtain ⟨hrecords, hstay⟩ := servedIf_leaves (decide (0 < w.clean.slots)) (slotsBack w)
  rw [← hreturned] at hrecords hstay
  have hstarts : (slotsBack w).starts = s.starts := hsw .starts (by simp)
  refine ⟨?_, (hronly .cool (by simp)).trans hcool, ?_, ?_, fun i hi => ?_,
    servedAs_returnSlots hsw halike hjournal hslots hwout h.starts,
    (hsw.mono (by simp)).trans (hronly.mono (by simp))⟩
  · rw [hclean, hwc, hoclean]
  · exact hdrew.congr rfl rfl (hronly .sources (by simp)) (hronly .peers (by simp))
  · exact ((Wrote.of_only hoff (by simp) (congrArg _ (hoff .journal (by simp)))).trans hww).trans
      (.of_only hronly (by simp) hrecords)
  · refine (hstay i fun hmem => ?_).trans (hwin i hi)
    rw [hstarts] at hmem
    obtain ⟨e, he, rfl⟩ := List.mem_map.mp hmem
    exact h.starts e he hi

/-- The selected lines are released and the run is over (R182 steps 4 to 7). -/
def runReleased (failed : Bool) (j : Job) (v : State) : State :=
  runOver (overLines (releaseLine failed) (linesOf j.lines) v)

theorem runReleased_spec (failed : Bool) (j : Job) {v : State} (hs : v.station ≠ .unconfigured) :
    (runReleased failed j v).clean = { v.clean with
      beerOut := Vector.replicate 8 0, stepCounts := Vector.replicate 8 0,
      flags := { v.clean.flags with flow := false, volume := false },
      runState := .idle, job := none, age := 0 } ∧
    StatusRequested v (runReleased failed j v) ∧
    (runReleased failed j v).attn = { v.attn with
      lineLocked := v.attn.lineLocked || (failed && !(linesOf j.lines).isEmpty), cleanEnd := true } ∧
    (∀ i ∈ linesOf j.lines,
      LineBecomes (runReleased failed j v) i (releasedLine v failed (v.line i))) ∧
    (∀ i, i ∉ linesOf j.lines → (runReleased failed j v).line i = v.line i) ∧
    Only [.lines, .attn, .link, .clean] v (runReleased failed j v) := by
  obtain ⟨hin, hout, hattn, honly⟩ := overLines_releaseLine failed (linesOf_nodup j.lines) v
  unfold runReleased
  generalize overLines (releaseLine failed) (linesOf j.lines) v = x at *
  obtain ⟨hclean, hreq, hover, hend⟩ := runOver_spec x
    (by rw [show x.station = v.station from honly .station (by simp)]; exact hs)
  have hlines : ∀ i, (runOver x).line i = x.line i := line_congr (hend .lines (by simp))
  refine ⟨by rw [hclean, show x.clean = v.clean from honly .clean (by simp)],
    hreq.of_link (honly .link (by simp)), by rw [hover, hattn]; rfl,
    fun i hi => (hin i hi).congr (hlines i) hend (by simp), fun i hi => (hlines i).trans (hout i hi),
    (honly.mono (by simp)).trans (hend.mono (by simp))⟩

/-- A run ends from RUNNING, whatever starts are pending on other lines (R182, R184). -/
theorem endRunning_ends (result : RunResult) (h : RunHeld j s) (hp : s.clean.progress = some p) :
    RunEnds result j p s (endRunning result s) := by
  have hin := recordsIn_returnSlots result p h
  rw [endRunning_eq result h.job hp]
  generalize returnSlots (runWritten result j p s) = v at hin
  obtain ⟨hvclean, hvcool, hdrew, hwrote, hvlines, hserved, hsv⟩ := hin
  have hst : v.station = s.station := hsv .station (by simp)
  change RunEnds result j p s (runReleased (result != .completed) j v)
  obtain ⟨hclean, hreq, hattn, hlines, hothers, hvt⟩ :=
    runReleased_spec (result != .completed) j (hst ▸ h.station)
  generalize runReleased (result != .completed) j v = t at *
  obtain ⟨hother, hstarts, hpours, hjournal⟩ := hserved
  have htjournal : t.journal = v.journal := hvt .journal (by simp)
  have hwritten : attnWritten s v = attnWritten s t := by
    simp only [attnWritten, source_congr (hvt .sources (by simp)), htjournal]
  refine ⟨?_, (hvt .cool (by simp)).trans hvcool, hreq.of_link (hsv .link (by simp)),
    hdrew.congr rfl rfl (hvt .sources (by simp)) (hvt .peers (by simp)), ?_, fun i hi => ?_,
    ⟨fun i hi => (hothers i hi).trans (hother i hi), (hvt .starts (by simp)).trans hstarts,
      (hvt .pours (by simp)).trans hpours, htjournal.trans hjournal⟩,
    (hsv.mono (by simp)).trans (hvt.mono (by simp))⟩
  · rw [hclean, hvclean]
    rfl
  · rw [hattn, hwrote.1, ← hwritten]
    cases result <;> cases linesOf j.lines <;> simp [attnWritten]
  · have hbecomes := hlines i hi
    rw [hvlines i hi] at hbecomes
    simpa [releasedLine, hst] using hbecomes

end ends

end Sys2Proof.Machine

/-! SUPPORT. The advance test and the events of a step, and their statements (R158 to R169). -/

namespace Sys2Proof.Machine

/-! ## A step left by its next or its fault next (R168) -/

section leaving

variable {j : Job} {p : Progress} {s : State}

/-- A step index is entered, whatever starts are pending on other lines. -/
theorem RunHeld.enters (h : RunHeld j s) (n runFrom : Nat) :
    EntersStep n runFrom s (enterStep n runFrom s) :=
  enterStep_enters n runFrom (by rw [h.selected]; exact h.starts)

theorem takeNext_taken (h : RunHeld j s) (hp : s.clean.progress = some p) :
    NextTaken p s (takeNext p s) := by
  unfold NextTaken takeNext
  cases (s.stepAt p.step).next with
  | step n => exact h.enters n p.runFrom
  | leave => exact ⟨j, h.job, endRunning_ends .completed h hp⟩

theorem takeFaultNext_taken (h : RunHeld j s) (hp : s.clean.progress = some p) :
    FaultTaken p s (takeFaultNext p s) := by
  unfold FaultTaken takeFaultNext
  cases (s.stepAt p.step).faultNext with
  | step n => exact h.enters n p.runFrom
  | leave => exact ⟨j, h.job, endRunning_ends .failed h hp⟩

end leaving

/-! ## The test after a flag change (R165), and the events of a step -/

section flags

variable {p : Progress} {s : State}

theorem afterFlagChange_outside (hr : s.clean.runState ≠ .running) : afterFlagChange s = s := by
  unfold afterFlagChange
  split
  · next hrun _ => exact absurd hrun hr
  · rfl

theorem afterFlagChange_running (hr : s.clean.runState = .running) (hp : s.clean.progress = some p) :
    afterFlagChange s = if p.phase = .testing ∧ testValue p s = true then takeNext p s else s := by
  simp only [afterFlagChange, hr, hp, Bool.and_eq_true, decide_eq_true_eq]

theorem afterFlagChange_stays (hr : s.clean.runState = .running) (hp : s.clean.progress = some p)
    (h : p.phase = .dwell ∨ testValue p s = false) : afterFlagChange s = s := by
  rw [afterFlagChange_running hr hp, if_neg]
  rintro ⟨hphase, htest⟩
  rcases h with h | h
  · simp [h] at hphase
  · simp [h] at htest

theorem afterFlagChange_taken {j : Job} (h : RunHeld j s) (hr : s.clean.runState = .running)
    (hp : s.clean.progress = some p) (hphase : p.phase = .testing) (htest : testValue p s = true) :
    NextTaken p s (afterFlagChange s) := by
  rw [afterFlagChange_running hr hp, if_pos ⟨hphase, htest⟩]
  exact takeNext_taken h hp

theorem stepEvent_running (f : Progress → State → State) (hr : s.clean.runState = .running)
    (hp : s.clean.progress = some p) : stepEvent f s = f p s := by
  simp only [stepEvent, hr, hp]

theorem exec_dwellExpiry (hl : s.rstnLow = false) (hr : s.clean.runState = .running)
    (hp : s.clean.progress = some p) : exec .dwellExpiry s = .next (dwellExpires p s) := by
  simp [exec, execDwellExpiry, powered, hl, stepEvent_running dwellExpires hr hp]

theorem exec_limitExpiry (hl : s.rstnLow = false) (hr : s.clean.runState = .running)
    (hp : s.clean.progress = some p) : exec .limitExpiry s = .next (limitExpires p s) := by
  simp [exec, execLimitExpiry, powered, hl, stepEvent_running limitExpires hr hp]

end flags

/-! ## The expiries of a step (R164, R166) -/

section expiries

variable {p : Progress} {s : State}

/-- At the dwell a true test takes the next, of a step with a single expiry as of any other. -/
theorem dwellExpires_passed (hphase : p.phase = .dwell) (htest : testValue p s = true) :
    dwellExpires p s = takeNext p s := by
  simp [dwellExpires, singleExpiry, hphase, htest]

theorem dwellExpires_testing (hphase : p.phase = .dwell) (htest : testValue p s = false)
    (hlimit : (s.stepAt p.step).limit ≠ (s.stepAt p.step).dwell) :
    dwellExpires p s = modClean (fun c => { c with progress := some { p with phase := .testing } }) s := by
  simp [dwellExpires, hphase, htest, hlimit]

theorem dwellExpires_single (hphase : p.phase = .dwell) (htest : testValue p s = false)
    (hlimit : (s.stepAt p.step).limit = (s.stepAt p.step).dwell) :
    dwellExpires p s = takeFaultNext p s := by
  simp [dwellExpires, singleExpiry, hphase, htest, hlimit]

theorem limitExpires_testing (hphase : p.phase = .testing) (hlimit : (s.stepAt p.step).limit ≠ 0) :
    limitExpires p s = takeFaultNext p s := by
  simp [limitExpires, hphase, hlimit]

end expiries

/-- Settles O47: the expiries of a step, by its phase, its limit and its test. -/
theorem stepExpiries : Obligations.StepExpiries := by
  intro s p hl hok hr hp st test
  obtain ⟨j, hheld⟩ := hok.runHeld hr
  rw [exec_dwellExpiry hl hr hp, exec_limitExpiry hl hr hp]
  refine ⟨fun hphase hlimit htest => ?_, fun hphase htest => ⟨_, rfl, ?_⟩,
    fun hphase hlimit htest => ⟨_, rfl, ?_⟩, fun hphase hlimit => ⟨_, rfl, ?_⟩⟩
  · rw [dwellExpires_testing hphase htest hlimit]
    rfl
  · rw [dwellExpires_passed hphase htest]
    exact takeNext_taken hheld hp
  · rw [dwellExpires_single hphase htest hlimit]
    exact takeFaultNext_taken hheld hp
  · rw [limitExpires_testing hphase hlimit]
    exact takeFaultNext_taken hheld hp

/-! ## Flag changes (R158, R159) -/

section changes

variable {s : State}

/-- A flag set to the level it has is no change, and the other way round (R158). -/
theorem setPin_eq_self (f : CondFlags) (pin : CondPin) (level : Bool) :
    f.setPin pin level = f ↔ f.pin pin = level := by
  cases f
  cases pin <;> simp [CondFlags.setPin, CondFlags.pin, eq_comm]

theorem exec_conditionPinChange (pin : CondPin) (level : Bool) (hl : s.rstnLow = false) :
    exec (.conditionPinChange pin level) s = .next (if s.clean.flags.setPin pin level = s.clean.flags
      then s else afterFlagChange (takePin pin level s)) := by
  simp [exec, execConditionPinChange, powered, hl, setPin_eq_self]

/-- The flow timer has run out: FLOW is clear and the timer stopped (R159). -/
def flowOut (s : State) : State :=
  modClean (fun c => { c with flowFrom := none, flags := { c.flags with flow := false } }) s

theorem exec_flowTimeout {p : Progress} (hl : s.rstnLow = false) (hr : s.clean.runState = .running)
    (hp : s.clean.progress = some p) : exec .flowTimeout s =
      .next (if s.clean.flags.flow = true then afterFlagChange (flowOut s) else s) := by
  simp [exec, execFlowTimeout, powered, hl, stepEvent_running _ hr hp, flowOut]

end changes

/-- Settles O46: a pin's flag and FLOW change, and the test follows in TESTING. -/
theorem flagChanges : Obligations.FlagChanges := by
  intro s pin level hl flags holds t still u
  have hflags : s.clean.flags.setPin pin level = flags := by cases pin <;> rfl
  have htaken : takePin pin level s = t := by cases pin <;> rfl
  have hout : flowOut s = u := rfl
  rw [exec_conditionPinChange pin level hl, hflags, htaken]
  refine ⟨fun hsame => by rw [if_pos hsame], fun hchange hr => ?_, fun p hr hp hchange => ?_,
    fun p hr hp => ?_⟩
  · rw [if_neg hchange, afterFlagChange_outside (s := t) hr]
  · rw [if_neg hchange]
    refine ⟨fun hstays => by rw [afterFlagChange_stays (s := t) hr hp hstays],
      fun hphase htest hok => ⟨_, rfl, ?_⟩⟩
    obtain ⟨j, hjob, hslots, hstarts, hstation⟩ := hok.runHeld hr
    exact afterFlagChange_taken (s := t) ⟨hjob, hslots, hstarts, hstation⟩ hr hp hphase htest
  · rw [exec_flowTimeout hl hr hp, hout]
    refine ⟨fun hflow => by rw [if_neg (by simp [hflow])], fun hflow hstays => ?_,
      fun hflow hphase hok htest => ⟨_, by rw [if_pos hflow], ?_⟩⟩
    · rw [if_pos hflow, afterFlagChange_stays (s := u) hr hp hstays]
    · obtain ⟨j, hjob, hslots, hstarts, hstation⟩ := hok.runHeld hr
      exact afterFlagChange_taken (s := u) ⟨hjob, hslots, hstarts, hstation⟩ hr hp hphase htest

/-! ## A cleaning pulse (R169) -/

section pulse

variable {p : Progress} {s : State} {i : LineNo}

theorem volumeReached_eq (s : State) (n : Nat) :
    volumeReached s n = decide (∀ j ∈ s.selected, n ≤ s.clean.stepCounts[j]) := by
  rw [Bool.eq_iff_iff]
  simp [volumeReached]

/-- The state with a cleaning pulse counted on its line (R160). -/
def pulseCounted (i : LineNo) (s : State) : State :=
  modClean (fun c => { c with stepCounts := c.stepCounts.set i (satInc max16 c.stepCounts[i]) }) s

/-- The condition flags after a cleaning pulse (R159, R160). -/
def pulsedFlags (i : LineNo) (p : Progress) (s : State) : CondFlags :=
  { s.clean.flags with
    flow := true
    volume := s.clean.flags.volume || volumeReached (pulseCounted i s) (s.stepAt p.step).pulses }

/-- A cleaning pulse counted, the flags set, the flow timer restarted and the beer-out counted (R159, R160,
R169). -/
def cleaningPulsed (i : LineNo) (p : Progress) (s : State) : State :=
  modClean (fun c => { c with
    flags := pulsedFlags i p s, flowFrom := some s.now,
    beerOut := if c.out.beerOut && !c.flags.clear
      then c.beerOut.set i (satInc max16 c.beerOut[i]) else c.beerOut }) (pulseCounted i s)

/-- A pulse sets a flag when FLOW was clear, or VOLUME was and is set. -/
theorem pulsedFlags_ne_iff : pulsedFlags i p s ≠ s.clean.flags ↔
    (((pulsedFlags i p s).volume && !s.clean.flags.volume) || !s.clean.flags.flow) = true := by
  unfold pulsedFlags
  generalize s.clean.flags = f
  obtain ⟨flow, volume, chem, clear, ext⟩ := f
  cases flow <;> cases volume <;> simp

/-- The test follows a flag that the pulse set (R165, R169). -/
theorem cleaningPulse_eq : cleaningPulse i p s = if pulsedFlags i p s ≠ s.clean.flags
    then afterFlagChange (cleaningPulsed i p s) else cleaningPulsed i p s := by
  simp only [pulsedFlags_ne_iff]
  rfl

theorem exec_meterPulse_cleaning (hl : s.rstnLow = false) (hc : s.configured i = true)
    (hs : (s.line i).state = .cleaning) (hr : s.clean.runState = .running)
    (hp : s.clean.progress = some p) : exec (.meterPulse i) s =
      .next (cleaningPulse i p (s.setLine i { s.line i with meter := .taken true })) := by
  rw [exec_meterPulse i hl]
  simp only [takePulse, setLine_configured, hc, line_setLine_same, hs, Bool.not_true, Bool.false_eq_true,
    if_false]
  rw [stepEvent_running (cleaningPulse i) (s := s.setLine i _) hr hp]

end pulse

end Sys2Proof.Machine

namespace Sys2Proof

open Machine

/-- Settles O35: a cleaning pulse is counted, and the test follows in TESTING when it set a flag. -/
theorem cleaningPulse : Obligations.CleaningPulse := by
  intro s i p hl hc hs hr hp c st counts reached flags u
  obtain ⟨v, hv⟩ : ∃ v, v = s.setLine i { s.line i with meter := .taken true } := ⟨_, rfl⟩
  have hflags : pulsedFlags i p v = flags := by
    rw [hv, pulsedFlags, volumeReached_eq]
    rfl
  have hpulsed : cleaningPulsed i p v = u := by
    simp only [cleaningPulsed, hflags, Bool.and_eq_true, Bool.not_eq_true']
    rw [hv]
    rfl
  have hbefore : v.clean.flags = c.flags := by rw [hv]; rfl
  rw [exec_meterPulse_cleaning hl hc hs hr hp, ← hv, cleaningPulse_eq, hflags, hpulsed, hbefore]
  refine ⟨fun h => ?_, fun hphase htest hchange hok => ?_⟩
  · by_cases hchange : flags ≠ c.flags
    · rw [if_pos hchange, afterFlagChange_stays (s := u) hr hp
        (h.imp_right (Or.resolve_right · hchange))]
    · rw [if_neg hchange]
  · obtain ⟨j, hjob, hslots, hstarts, hstation⟩ := hok.runHeld hr
    rw [if_pos hchange]
    exact ⟨_, rfl, afterFlagChange_taken (s := u) ⟨hjob, hslots, hstarts, hstation⟩ hr hp hphase htest⟩

end Sys2Proof

/-! SUPPORT. The advance test over the five condition flags, and its statement (R161). -/

namespace Sys2Proof.Machine

/-- The five condition flags (R158 to R160). -/
def conditionFlags : List (CondFlags → Bool) :=
  [CondFlags.flow, CondFlags.volume, CondFlags.chem, CondFlags.clear, CondFlags.ext]

/-- The advance test judges each flag by itself (R161). -/
theorem advanceTest_iff (st : StepRec) (f : CondFlags) : advanceTest st f = true ↔
    ∀ g ∈ conditionFlags, flagPasses st.kind (g st.mask) (g st.pattern) (g f) = true := by
  simp [advanceTest, conditionFlags, and_assoc]

section flag

variable (mask pattern flag : Bool)

theorem flagPasses_unmasked (kind : TestKind) : flagPasses kind false pattern flag = true := rfl

theorem flagPasses_allSet : flagPasses .allSet mask pattern flag = true ↔ (mask = true → flag = true) := by
  cases mask <;> simp [flagPasses]

theorem flagPasses_allClear :
    flagPasses .allClear mask pattern flag = true ↔ (mask = true → flag = false) := by
  cases mask <;> simp [flagPasses]

theorem flagPasses_pattern :
    flagPasses .pattern mask pattern flag = true ↔ (mask = true → flag = pattern) := by
  cases mask <;> simp [flagPasses]

end flag

/-- No flag is in the empty mask. -/
theorem mask_none : ∀ g ∈ conditionFlags, g CondFlags.none = false := by
  simp [conditionFlags, CondFlags.none]

end Sys2Proof.Machine

namespace Sys2Proof

open Machine

/-- Settles O49: the kinds of test flag by flag, and the empty mask. -/
theorem advanceTest : Obligations.AdvanceTest := by
  intro st f inMask each
  have hiff := advanceTest_iff st f
  refine ⟨fun hk => ?_, fun hk => ?_, fun hk => ?_, fun hm => hiff.mpr fun g hg => ?_⟩
  · rw [hk] at hiff
    exact hiff.trans (forall₂_congr fun g _ => flagPasses_allSet _ _ _)
  · rw [hk] at hiff
    exact hiff.trans (forall₂_congr fun g _ => flagPasses_allClear _ _ _)
  · rw [hk] at hiff
    exact hiff.trans (forall₂_congr fun g _ => flagPasses_pattern _ _ _)
  · rw [hm, mask_none g hg]
    exact flagPasses_unmasked _ _ _

end Sys2Proof

/-! SUPPORT. A run enters RUNNING by its claim alone: what every other operation leaves of the run state (R168,
R171, R176, R182, R183). -/

namespace Sys2Proof.Machine

/-! ## A run in RUNNING afterwards was in RUNNING before -/

/-- An operation by which no run enters RUNNING. -/
def BeginsNone (s t : State) : Prop := t.clean.runState = .running → s.clean.runState = .running

section beginsNone

variable {s t u : State} {ps : List Part}

theorem BeginsNone.refl (s : State) : BeginsNone s s := id

/-- Operations one after the other, from the last one backwards. -/
theorem BeginsNone.after (h' : BeginsNone t u) (h : BeginsNone s t) : BeginsNone s u := h ∘ h'

/-- An operation made in some states and not in others. -/
theorem BeginsNone.ite {c : Prop} [Decidable c] (h : BeginsNone s t) (h' : BeginsNone s u) :
    BeginsNone s (if c then t else u) := by
  split
  · exact h
  · exact h'

/-- The same for the state that a command body leaves. -/
theorem BeginsNone.answer {c : Prop} [Decidable c] {a b : State × Answer} (h : BeginsNone s a.1)
    (h' : BeginsNone s b.1) : BeginsNone s (if c then a else b).1 := by
  split
  · exact h
  · exact h'

theorem BeginsNone.of_runState (h : t.clean.runState = s.clean.runState) : BeginsNone s t := h.symm.trans

theorem BeginsNone.of_clean (h : t.clean = s.clean) : BeginsNone s t :=
  .of_runState (congrArg Cleaning.runState h)

theorem BeginsNone.of_only (h : Only ps s t) (hps : .clean ∉ ps) : BeginsNone s t := .of_clean (h .clean hps)

/-- A run that stands elsewhere afterwards has not entered RUNNING. -/
theorem BeginsNone.of_outside (h : t.clean.runState ≠ .running) : BeginsNone s t := fun hr => absurd hr h

/-- What is done to a run in RUNNING alone begins none. -/
theorem BeginsNone.of_running (h : s.clean.runState ≠ .running → t = s) : BeginsNone s t := fun hr => by
  by_contra hs
  exact hs (h hs ▸ hr)

theorem beginsNone_setLine (i : LineNo) (l : Line) : BeginsNone s (s.setLine i l) := .of_clean rfl

theorem beginsNone_modLink (f : Link → Link) : BeginsNone s (modLink f s) := .of_clean rfl

theorem beginsNone_raise (f : AttnFlag) : BeginsNone s (raise f s) := .of_clean rfl

theorem beginsNone_serve (s : State) : BeginsNone s (serve s) := .of_only (serve_only s) (by simp)

theorem beginsNone_requestStatus (s : State) : BeginsNone s (requestStatus s) :=
  .of_only (requestStatus_only s) (by simp)

theorem beginsNone_refuseEntry (i : LineNo) (st : LineState) (s : State) :
    BeginsNone s (refuseEntry i st s) := by
  obtain ⟨-, -, -, honly⟩ := refuseEntry_spec i st s
  exact .of_only honly (by simp)

theorem beginsNone_endIfPouring (i : LineNo) (reason : EndReason) (s : State) :
    BeginsNone s (endIfPouring i reason s) :=
  .of_only (endIfPouring_others i reason s).2 (by simp)

theorem beginsNone_overLines {f : LineNo → State → State} (h : ∀ i s, BeginsNone s (f i s))
    (is : List LineNo) (s : State) : BeginsNone s (overLines f is s) := by
  induction is generalizing s with
  | nil => exact .refl s
  | cons i rest ih => exact .after (ih _) (h i s)

/-- A reset leaves no run (R193). -/
theorem beginsNone_resetAct (s : State) : BeginsNone s (resetAct s) :=
  .of_outside (by simp [resetAct, State.reset, Cleaning.reset])

end beginsNone

/-! ## Cleaning -/

section cleaning

variable (s : State)

/-- The events of a step act on a run in RUNNING (R168). -/
theorem beginsNone_stepEvent (f : Progress → State → State) : BeginsNone s (stepEvent f s) :=
  .of_running fun hs => by
    unfold stepEvent
    split
    next hr _ => exact absurd hr hs
    · rfl

theorem beginsNone_afterFlagChange : BeginsNone s (afterFlagChange s) := .of_running afterFlagChange_outside

/-- The early end of a run leaves it IDLE (R183). -/
theorem beginsNone_endEarly : BeginsNone s (endEarly s) := by
  have hidle : ∀ u, BeginsNone s (goIdle u) := fun u => .of_outside (by simp [goIdle])
  unfold endEarly
  split
  · exact .after (beginsNone_raise _) (.ite (.after (beginsNone_requestStatus _) (hidle _)) (hidle _))
  · exact .refl s

theorem beginsNone_abortRun : BeginsNone s (abortRun s) := by
  cases hr : s.clean.runState with
  | idle => simp only [abortRun, hr]; exact .refl s
  | preparing | claiming => simp only [abortRun, hr]; exact beginsNone_endEarly s
  | running => exact fun _ => hr

/-- A run that has prepared goes on to its claim (R176). -/
theorem beginsNone_checkPrepared : BeginsNone s (checkPrepared s) :=
  .ite (.of_outside (by simp [(enterClaiming_spec s).1])) (.refl s)

end cleaning

/-! ## The tower -/

section tower

variable (i : LineNo) (s : State)

theorem beginsNone_endPour (reason : EndReason) : BeginsNone s (endPour i reason s) := by
  cases hp : (s.line i).pour with
  | none => simp only [endPour, hp]; exact .refl s
  | some p => exact .of_only (endPour_spec i reason s p hp).2.2 (by simp)

theorem beginsNone_pourPulse (p : PourCtx) : BeginsNone s (pourPulse i p s) := by
  unfold pourPulse
  simp only
  split
  · split
    · exact .after (.of_only (setEmpty_only _ _) (by simp))
        (.after (beginsNone_endPour i _ _) (beginsNone_setLine i _))
    · exact .after (beginsNone_endPour i _ _) (beginsNone_setLine i _)
    · exact beginsNone_setLine i _
  · exact beginsNone_setLine i _

theorem beginsNone_creepPulse : BeginsNone s (creepPulse i s) := by
  have hlocked : ∀ u, BeginsNone u (setLock i .leak u) := fun u =>
    .of_only (setLock_spec i .leak u).2.2.2 (by simp)
  unfold creepPulse
  simp only
  split
  · split
    · exact .after (.of_only (setState_spec i _ _).2.2 (by simp))
        (.after (hlocked _) (beginsNone_setLine i _))
    · exact .after (beginsNone_refuseEntry i _ _) (.after (hlocked _) (beginsNone_setLine i _))
    · exact beginsNone_setLine i _
  · exact beginsNone_setLine i _

theorem beginsNone_takePulse : BeginsNone s (takePulse i s) := by
  unfold takePulse
  simp only
  split
  · exact .refl s
  · split
    case h_1 | h_2 =>
      split
      · exact beginsNone_pourPulse i s _
      · exact .refl s
    case h_3 => exact beginsNone_stepEvent s _
    case h_4 => exact beginsNone_creepPulse i s

theorem beginsNone_request (kind : StartKind) : BeginsNone s (request i kind s) :=
  .of_only (request_only i kind s) (by simp)

/-- A completion may let the run go on to its claim, and no further (R176). -/
theorem beginsNone_complete (p : PourCtx) : BeginsNone s (complete i p s) := by
  obtain ⟨-, -, -, -, -, -, -, -, hbook⟩ := bookPour_spec i p s
  have hsettle : ∀ u, BeginsNone u (afterCompletion i p u) := by
    intro u
    have hline : BeginsNone u (settleLine i p u) := .of_only (settleLine_spec i p u).2.2.2 (by simp)
    rw [afterCompletion_eq]
    exact .ite (.after (beginsNone_checkPrepared _) hline) hline
  have hpresent : ∀ u, BeginsNone u (presentRemembered i u) := by
    intro u
    unfold presentRemembered
    simp only
    split
    · exact .after (beginsNone_request i _ _) (beginsNone_setLine i _)
    · exact .refl u
  rw [complete_eq]
  exact .after (hpresent _) (.after (beginsNone_serve _) (.after (hsettle _) (.of_only hbook (by simp))))

theorem beginsNone_pressHandle : BeginsNone s (pressHandle i s) := by
  unfold pressHandle
  refine .ite (.refl s) ?_
  split
  case h_5 => exact beginsNone_request i s .handle
  all_goals exact .of_clean rfl

theorem beginsNone_releaseHandle : BeginsNone s (releaseHandle i s) := by
  unfold releaseHandle
  refine .ite (.refl s) ?_
  split
  · exact .ite (.of_clean rfl) (.refl s)
  · exact .ite (beginsNone_endPour i s _) (.refl s)
  · exact .refl s

theorem beginsNone_pressKey (k : Key) : BeginsNone s (pressKey i k s) := by
  unfold pressKey
  split
  case h_5 => exact beginsNone_request i s _
  case h_6 => exact .ite (beginsNone_setLine i _) (.refl s)
  all_goals exact .of_clean rfl

end tower

/-! ## The cellar link and cooling -/

section link

variable (s : State)

theorem beginsNone_takeChange (b : ChangeBody) : BeginsNone s (takeChange b s) := by
  unfold takeChange
  split
  · simp only
    split
    · exact .of_only (adopt_only _ _ _ _ s) (by simp)
    · exact .after (.of_only (lowTest_only _ _) (by simp)) (.of_clean rfl)
    · exact .refl s
  · exact .refl s

theorem beginsNone_duplicateStation : BeginsNone s (duplicateStation s) :=
  .after (beginsNone_raise _) (.ite (.refl s) (.ite (beginsNone_modLink _) (.of_clean rfl)))

theorem beginsNone_startAttempt : BeginsNone s (startAttempt s) := by
  unfold startAttempt
  split
  · split
    · exact beginsNone_modLink _
    · exact .refl s
  · exact .refl s

theorem beginsNone_collide : BeginsNone s (collide s) := by
  have hdrop : ∀ kind u, BeginsNone u (dropFrame kind u) := fun kind u => by
    cases kind <;> exact .of_clean rfl
  unfold collide
  split
  · exact .ite (.after (hdrop _ _) (beginsNone_modLink _)) (.of_clean rfl)
  · exact .refl s

theorem beginsNone_sample (code : BitVec 12) : BeginsNone s (sample code s) := by
  rw [sample_eq]
  exact .after (.of_only (servedIf_only _ _) (by simp))
    (.after (.of_only (relampAll_only _) (by simp)) (.of_only (sampled_frame code s) (by simp)))

theorem beginsNone_staleRegrant : BeginsNone s (staleRegrant s) := by
  rw [staleRegrant_served, regrant_eq]
  exact .after (.of_only (servedIf_only _ _) (by simp)) (.of_clean rfl)

end link

/-! ## The commands -/

section commands

variable (s : State)

theorem beginsNone_configureBody (img : List Byte) : BeginsNone s (configureBody img s).1 := by
  have haccept : BeginsNone s (acceptImage img s) :=
    .after (.of_clean rfl) (.after (beginsNone_requestStatus _) (.of_clean rfl))
  unfold configureBody
  refine .answer (.refl s) ?_
  split
  · exact .refl s
  · exact haccept

theorem beginsNone_startBody : BeginsNone s (startBody s).1 := by
  obtain ⟨-, -, honly, -⟩ := startStation_spec s
  exact .answer (.refl s) (.of_only honly (by simp))

theorem beginsNone_stopBody : BeginsNone s (stopBody s).1 := by
  have htower : BeginsNone s (closeTower s) :=
    .after (beginsNone_overLines (beginsNone_endIfPouring · .stopped) _ _)
      (.after (beginsNone_overLines (beginsNone_refuseEntry · .off) _ _) (.of_clean rfl))
  have hlines : ∀ u, BeginsNone u (overLines stopLine allLines u) :=
    beginsNone_overLines (fun i u => .of_only (stopLine_spec i u).2.2 (by simp)) _
  have hleave : leaveRunning s = overLines stopLine allLines (abortRun (closeTower s)) := rfl
  unfold stopBody
  split
  · exact .refl s
  · simp only [accept, hleave]
    exact .after (beginsNone_requestStatus _) (.after (hlines _) (.after (beginsNone_abortRun _) htower))

theorem beginsNone_readLineBody (line : Byte) : BeginsNone s (readLineBody line s).1 := by
  unfold readLineBody
  refine .answer (.refl s) ?_
  split <;> exact .refl s

theorem beginsNone_readSourceBody (source : Byte) : BeginsNone s (readSourceBody source s).1 := by
  unfold readSourceBody
  refine .answer (.refl s) ?_
  split <;> exact .refl s

theorem beginsNone_readPeerBody (station : Byte) : BeginsNone s (readPeerBody station s).1 := by
  unfold readPeerBody
  refine .answer (.refl s) ?_
  split
  · exact .refl s
  · split <;> exact .refl s

theorem beginsNone_takeRecordBody : BeginsNone s (takeRecordBody s).1 := by
  unfold takeRecordBody
  refine .answer (.refl s) ?_
  split
  · exact .refl s
  · exact .after (beginsNone_serve _) (.of_clean rfl)

theorem beginsNone_orderBody (line : Byte) (tag volume : BitVec 16) :
    BeginsNone s (orderBody line tag volume s).1 := by
  unfold orderBody
  split
  · exact .refl s
  · exact .answer (.refl s) (.answer (.refl s) (.answer (.refl s) (beginsNone_setLine _ _)))

theorem beginsNone_cancelBody (line : Byte) (tag : BitVec 16) : BeginsNone s (cancelBody line tag s).1 := by
  unfold cancelBody
  split
  · exact .refl s
  · exact .answer (.refl s) (.answer (beginsNone_setLine _ _)
      (.answer (.answer (beginsNone_endPour _ s _) (.refl s)) (.refl s)))

theorem beginsNone_pourStopBody (line : Byte) : BeginsNone s (pourStopBody line s).1 := by
  unfold pourStopBody
  refine .answer (.refl s) ?_
  split
  · exact .refl s
  · split
    · exact beginsNone_endPour _ s _
    · exact beginsNone_refuseEntry _ _ s
    · exact beginsNone_setLine _ _
    · exact .refl s

theorem beginsNone_unlockBody (line : Byte) : BeginsNone s (unlockBody line s).1 := by
  unfold unlockBody
  refine .answer (.refl s) ?_
  split
  · exact .refl s
  · exact .answer (.refl s) (.of_only (clearLock_spec _ s).2.2 (by simp))

theorem beginsNone_calibrateBody (line : Byte) (va : BitVec 32) :
    BeginsNone s (calibrateBody line va s).1 := by
  unfold calibrateBody
  refine .answer (.refl s) ?_
  split
  · exact .refl s
  · refine .answer (.refl s) ?_
    split
    · exact .refl s
    · exact .answer (.refl s) (.of_clean rfl)

theorem beginsNone_sourceChangeBody (source : Byte) (full : BitVec 32) :
    BeginsNone s (sourceChangeBody source full s).1 := by
  unfold sourceChangeBody
  refine .answer (.refl s) ?_
  split
  · exact .refl s
  · exact .answer (.refl s) (.answer (.refl s)
      (.of_only (changedSource_spec source full _ s).2.2 (by simp)))

theorem beginsNone_clearMuteBody : BeginsNone s (clearMuteBody s).1 :=
  .answer (.refl s) (.after (beginsNone_requestStatus _) (beginsNone_modLink _))

/-- A run accepted prepares (R175). -/
theorem beginsNone_cleanStartBody (entry lines : Byte) : BeginsNone s (cleanStartBody entry lines s).1 := by
  have hprepares : ∀ u, BeginsNone s (modClean (fun c => { c with runState := .preparing }) u) := fun u =>
    .of_outside (by simp)
  exact .answer (.refl s) (.answer (.refl s) (.answer (.refl s) (.answer (.refl s)
    (.answer (.refl s) (.after (beginsNone_checkPrepared _) (hprepares _))))))

theorem beginsNone_cleanAbortBody : BeginsNone s (cleanAbortBody s).1 :=
  .answer (.refl s) (beginsNone_abortRun s)

end commands

end Sys2Proof.Machine

/-! SUPPORT. The slot that a run in own view finds free when it enters RUNNING, over every command and event, and
the statement (R178). -/

namespace Sys2Proof.Machine

/-! ## The claim that begins a run -/

/-- In own view a cleaning slot is free for a claim of age 2 or more, and the station is not in MUTE (R178). -/
structure SlotFree (t : State) : Prop where
  age : 2 ≤ t.clean.age
  mute : t.link.mute = false
  ahead : rankedAhead t t.clean.age < t.cfg.cleanSlots

/-- A run that enters RUNNING finds a slot free. -/
def BeginsFree (s t : State) : Prop :=
  s.clean.runState ≠ .running → t.clean.runState = .running → SlotFree t

section claim

variable {s t u : State}

/-- The claim age, MUTE, the Peer Table and the configuration are what a free slot is read from. -/
theorem SlotFree.congr (h : SlotFree s) (hage : t.clean.age = s.clean.age)
    (hmute : t.link.mute = s.link.mute) (hpeers : t.peers = s.peers) (hconfig : t.config = s.config) :
    SlotFree t := by
  have hcfg : t.cfg = s.cfg := by simp only [State.cfg, hconfig]
  have hahead : rankedAhead t t.clean.age = rankedAhead s s.clean.age := by
    simp only [rankedAhead, State.numberedPeers, hage, hpeers, hcfg]
  exact ⟨hage ▸ h.age, hmute ▸ h.mute, by rw [hahead, hcfg]; exact h.ahead⟩

theorem BeginsNone.free (h : BeginsNone s t) : BeginsFree s t := fun hs ht => absurd (h ht) hs

/-- Before the operation that may begin a run stand others that begin none. -/
theorem BeginsFree.after (h' : BeginsFree t u) (h : BeginsNone s t) : BeginsFree s u :=
  fun hs => h' (mt h hs)

theorem BeginsFree.ite {c : Prop} [Decidable c] (h : BeginsFree s t) (h' : BeginsFree s u) :
    BeginsFree s (if c then t else u) := by
  split
  · exact h
  · exact h'

theorem requestStatus_mute (s : State) : (requestStatus s).link.mute = s.link.mute := by
  unfold requestStatus
  split
  · rfl
  · exact chooseFrame_mute _

/-- A run that enters RUNNING keeps the claim age that it was evaluated with (R177). -/
theorem enterRunning_age (s : State) : (enterRunning s).clean.age = s.clean.age := by
  cases hjob : s.clean.job with
  | none => simp only [enterRunning, hjob]
  | some j =>
    have hlines : ∀ u, (overLines activate (linesOf j.lines) u).clean = u.clean := fun u =>
      overLines_only (fun i v => (activate_frame i v).2) _ u .clean (by simp)
    have hrequest : ∀ u, (requestStatus u).clean = u.clean := fun u => requestStatus_only u .clean (by simp)
    rw [enterRunning_eq hjob, (enterStep_spec _ _ _).1]
    simp only [runEntered, modClean_clean, hrequest, hlines]

theorem SlotFree.enterRunning (h : SlotFree s) : SlotFree (enterRunning s) := by
  refine h.congr (enterRunning_age s) ?_ (asks_enterRunning s).peers (enterRunning_only s .config (by simp))
  rcases (asks_enterRunning s).link with hlink | hlink
  · rw [hlink]
  · rw [hlink, requestStatus_mute]

/-- The claim evaluation begins a run on its three conditions alone (R178). -/
theorem beginsFree_evaluateClaim (s : State) : BeginsFree s (evaluateClaim s) := by
  by_cases hclaim : s.clean.runState = .claiming
  · rw [evaluateClaim_claiming hclaim]
    split
    next hfree =>
      obtain ⟨hage, hahead, hmute⟩ := hfree
      have hslot : SlotFree (modClean (fun c => { c with ahead := aheadCount s }) s) := ⟨hage, hmute, hahead⟩
      exact fun _ _ => hslot.enterRunning
    next => exact (BeginsNone.of_outside (by simp [hclaim])).free
  · rw [evaluateClaim_idle hclaim]
    exact (BeginsNone.refl s).free

/-- The frame chosen after the claim is evaluated leaves MUTE (R110). -/
theorem BeginsFree.selectFrame (h : BeginsFree s t) : BeginsFree s (selectFrame t) :=
  fun hs ht => (h hs ht).congr rfl (chooseFrame_mute _) rfl rfl

end claim

/-! ## The events that evaluate a claim -/

section events

variable {s t : State}

theorem beginsFree_succeed (s : State) : BeginsFree s (succeed s) := by
  have hstatus : ∀ u, BeginsFree u (statusSuccess u) := fun u =>
    .ite (.after (beginsFree_evaluateClaim _) (.of_runState rfl)) (BeginsNone.refl u).free
  unfold succeed
  split
  · exact .selectFrame (.ite (.after (hstatus _) (beginsNone_modLink _)) (beginsNone_modLink _).free)
  · exact (BeginsNone.refl s).free

theorem beginsFree_arriveFrame (f : LinkFrame) (s : State) : BeginsFree s (arriveFrame f s) := by
  have hhand : ∀ u, BeginsFree u (handFrame f u) := by
    intro u
    unfold handFrame
    refine .ite (beginsNone_duplicateStation u).free ?_
    split
    · exact (beginsNone_takeChange u _).free
    · split
      · rw [applyStatus_eq]
        exact .after (beginsFree_evaluateClaim _) (.of_only (statusTaken_only _ _) (by simp))
      · exact (BeginsNone.refl u).free
  exact .ite (.after (hhand _) (beginsNone_modLink _)) (beginsNone_modLink _).free

theorem beginsFree_takeChar (v : Byte) (err : Bool) (s : State) : BeginsFree s (takeChar v err s) := by
  unfold takeChar
  split
  · exact (BeginsNone.refl s).free
  · exact (BeginsNone.refl s).free
  · exact (BeginsNone.ite (beginsNone_modLink _) (.ite (beginsNone_modLink _) (beginsNone_modLink _))).free
  · split
    · exact (beginsNone_modLink _).free
    · exact (beginsNone_modLink _).free
    · exact beginsFree_arriveFrame _ s
  · split
    · exact .ite (beginsNone_collide s).free (.ite (beginsFree_succeed s) (beginsNone_modLink _).free)
    · exact (BeginsNone.refl s).free

/-! ## Every command and event -/

theorem beginsFree_event {f : State → State}
    (h : (Host.Outcome.next (powered s f) : Host.Outcome State Fault Refusal) = .next t)
    (hf : BeginsFree s (f s)) : BeginsFree s t :=
  Host.Outcome.next.inj h ▸ .ite (BeginsNone.refl s).free hf

theorem beginsFree_quietEvent {f : State → State}
    (h : (Host.Outcome.next (powered s f) : Host.Outcome State Fault Refusal) = .next t)
    (hf : BeginsNone s (f s)) : BeginsFree s t := beginsFree_event h hf.free

/-- A command period marks an overrun, resets, or executes its command (R188, R189, R193). -/
theorem beginsFree_body {body : State → State × Answer}
    (h : (Host.Outcome.next (command body s) : Host.Outcome State Fault Refusal) = .next t)
    (hb : ∀ s, BeginsNone s (body s).1) : BeginsFree s t :=
  beginsFree_quietEvent h (.ite (.of_clean rfl) (.ite (beginsNone_resetAct s) (hb (beginCommand s))))

theorem beginsNone_readOut (n : Nat) (s : State) : BeginsNone s (readOut n s) := by
  have hport : ∀ (u : State) (p : Port), BeginsNone u { u with port := p } := fun _ _ => .of_clean rfl
  unfold readOut
  exact .after (hport _ _) (.ite (beginsNone_resetAct s) (hport s _))

theorem beginsFree_execPeerExpiry (station : Byte) (h : execPeerExpiry station s = .next t) :
    BeginsFree s t := by
  refine beginsFree_event h ?_
  split
  · exact (BeginsNone.refl s).free
  · split
    · exact (BeginsNone.refl s).free
    · exact .ite (.after (beginsFree_evaluateClaim _) (.after (beginsNone_staleRegrant _) (.of_clean rfl)))
        (BeginsNone.refl s).free

theorem beginsFree_execPourCompletion (i : LineNo) (h : execPourCompletion i s = .next t) :
    BeginsFree s t := by
  refine beginsFree_quietEvent h ?_
  split
  · exact beginsNone_complete i s _
  · exact .refl s

theorem beginsFree_execValveHoldDrive (i : LineNo) (h : execValveHoldDrive i s = .next t) :
    BeginsFree s t := by
  refine beginsFree_quietEvent h ?_
  split
  · exact beginsNone_setLine i _
  · exact .refl s

theorem beginsFree_execIdleGapExpiry (h : execIdleGapExpiry s = .next t) : BeginsFree s t := by
  refine beginsFree_quietEvent h ?_
  split
  · exact beginsNone_modLink _
  · exact beginsNone_modLink _
  · exact .refl s

theorem beginsFree_execResponseReady (h : execResponseReady s = .next t) : BeginsFree s t := by
  refine beginsFree_quietEvent h ?_
  split
  · exact .of_clean rfl
  · exact .refl s

/-- Whatever command or event is taken, a run enters RUNNING by its claim. -/
theorem beginsFree_exec (c : Instr) (h : exec c s = .next t) : BeginsFree s t := by
  cases c with
  | configure image => exact beginsFree_body h fun s => beginsNone_configureBody s image
  | start => exact beginsFree_body h beginsNone_startBody
  | stop => exact beginsFree_body h beginsNone_stopBody
  | reset => exact beginsFree_body h fun _ => .of_clean rfl
  | readStatus => exact beginsFree_body h .refl
  | readLine line => exact beginsFree_body h fun s => beginsNone_readLineBody s line
  | readSource source => exact beginsFree_body h fun s => beginsNone_readSourceBody s source
  | readPeer station => exact beginsFree_body h fun s => beginsNone_readPeerBody s station
  | readLink => exact beginsFree_body h fun s => .answer (.refl s) (beginsNone_modLink _)
  | readAttention => exact beginsFree_body h fun _ => .of_clean rfl
  | takeRecord => exact beginsFree_body h beginsNone_takeRecordBody
  | order line tag volume => exact beginsFree_body h fun s => beginsNone_orderBody s line tag volume
  | cancel line tag => exact beginsFree_body h fun s => beginsNone_cancelBody s line tag
  | pourStop line => exact beginsFree_body h fun s => beginsNone_pourStopBody s line
  | unlock line => exact beginsFree_body h fun s => beginsNone_unlockBody s line
  | calibrate line va => exact beginsFree_body h fun s => beginsNone_calibrateBody s line va
  | sourceChange source full => exact beginsFree_body h fun s => beginsNone_sourceChangeBody s source full
  | cleanStart entry lines => exact beginsFree_body h fun s => beginsNone_cleanStartBody s entry lines
  | cleanAbort => exact beginsFree_body h beginsNone_cleanAbortBody
  | clearMute => exact beginsFree_body h beginsNone_clearMuteBody
  | commandNotExecuted => exact beginsFree_body h .refl
  | readPeriod bytes => exact beginsFree_quietEvent h (.ite (.refl s) (beginsNone_readOut bytes s))
  | responseReady => exact beginsFree_execResponseReady h
  | resetResponseTimeout => exact beginsFree_quietEvent h (.ite (beginsNone_resetAct s) (.refl s))
  | rstnAssert =>
    have hreset : BeginsNone s { resetAct s with rstnLow := true } := beginsNone_resetAct s
    exact Host.Outcome.next.inj h ▸ hreset.free
  | rstnRelease => exact Host.Outcome.next.inj h ▸ (beginsNone_resetAct s).free
  | portReadyAfterReset => exact beginsFree_quietEvent h (.ite (.of_clean rfl) (.refl s))
  | handlePress i =>
    exact beginsFree_quietEvent h
      (.ite (.after (beginsNone_pressHandle i _) (beginsNone_setLine i _)) (beginsNone_setLine i _))
  | handleRelease i =>
    exact beginsFree_quietEvent h
      (.ite (.after (beginsNone_releaseHandle i _) (beginsNone_setLine i _)) (beginsNone_setLine i _))
  | keyPress i k =>
    exact beginsFree_quietEvent h
      (.ite (.after (beginsNone_pressKey i _ k) (beginsNone_setLine i _)) (beginsNone_setLine i _))
  | keyEntryExpiry i => exact beginsFree_quietEvent h (.ite (beginsNone_refuseEntry i _ s) (.refl s))
  | refuseFlashEnd i =>
    exact beginsFree_quietEvent h
      (.ite (.after (.of_only (relamp_only i _) (by simp)) (beginsNone_setLine i _)) (.refl s))
  | valveHoldDrive i => exact beginsFree_execValveHoldDrive i h
  | meterPulse i => exact beginsFree_quietEvent h (.after (beginsNone_takePulse i _) (beginsNone_setLine i _))
  | noFlowExpiry i => exact beginsFree_quietEvent h (beginsNone_endIfPouring i _ s)
  | pourTimerExpiry i => exact beginsFree_quietEvent h (beginsNone_endIfPouring i _ s)
  | pourCompletion i => exact beginsFree_execPourCompletion i h
  | stationSecondsTick => exact beginsFree_quietEvent h (.ite (.refl s) (.of_clean rfl))
  | validFrameArrival frame =>
    exact beginsFree_event h (.ite (beginsFree_arriveFrame frame s) (BeginsNone.refl s).free)
  | frameDiscarded check => exact beginsFree_quietEvent h (.ite (beginsNone_modLink _) (.refl s))
  | idleGapExpiry => exact beginsFree_execIdleGapExpiry h
  | announcementTimerExpiry =>
    exact beginsFree_quietEvent h (.ite (.refl s) (.after (beginsNone_requestStatus _) (beginsNone_modLink _)))
  | accessWaitExpiry => exact beginsFree_quietEvent h (.ite (.refl s) (beginsNone_startAttempt s))
  | collision => exact beginsFree_quietEvent h (beginsNone_collide s)
  | transmitSuccess => exact beginsFree_event h (beginsFree_succeed s)
  | peerExpiry station => exact beginsFree_execPeerExpiry station h
  | sensorSample code => exact beginsFree_quietEvent h (.ite (.refl s) (beginsNone_sample s code))
  | glycolFrameStart => exact beginsFree_quietEvent h (.ite (.refl s) (.of_clean rfl))
  | glycolOnTimeEnd => exact beginsFree_quietEvent h (.of_clean rfl)
  | conditionPinChange pin level =>
    exact beginsFree_quietEvent h (.ite (.refl s) (.after (beginsNone_afterFlagChange _) (.of_runState rfl)))
  | flowTimeout => exact beginsFree_quietEvent h (beginsNone_stepEvent s _)
  | dwellExpiry => exact beginsFree_quietEvent h (beginsNone_stepEvent s _)
  | limitExpiry => exact beginsFree_quietEvent h (beginsNone_stepEvent s _)
  | runLimitExpiry => exact beginsFree_quietEvent h (beginsNone_stepEvent s _)
  | characterStart => exact beginsFree_quietEvent h (.ite (.refl s) (beginsNone_modLink _))
  | characterTaken value err => exact beginsFree_event h (beginsFree_takeChar value err s)
  | lampBlinkPhase i => exact beginsFree_quietEvent h (.ite (beginsNone_setLine i _) (.refl s))

/-- Time moves the holds of the condition pins, and no run state (R158). -/
theorem tick_runState (s : State) : (tick s).clean.runState = s.clean.runState := by
  unfold tick watchInputs
  split <;> rfl

/-- The queue, the clock and the input stages begin no run. -/
theorem beginsFree_step (h : step s = .next t) : BeginsFree s t := by
  cases hp : s.pending with
  | cons c rest =>
    simp only [step, hp] at h
    exact .after (beginsFree_exec c h) (.of_clean rfl)
  | nil =>
    simp only [step, hp, idleStep] at h
    cases hd : due s with
    | some c =>
      rw [hd] at h
      exact .after (beginsFree_exec c h) (.of_only (settleReceiver_only c s) (by simp))
    | none =>
      rw [hd] at h
      have htick : tick s = t := Host.Outcome.next.inj h
      exact htick ▸ (BeginsNone.of_runState (tick_runState s)).free

end events

/-- Settles O59: a run enters RUNNING in the claim evaluation alone, which tests for a free slot, and what
follows in the same event leaves what the test has read. -/
theorem runningNeedsSlot : Obligations.RunningNeedsSlot := by
  intro s t h hs ht
  obtain ⟨hage, hmute, hahead⟩ := beginsFree_step h hs ht
  exact ⟨hage, hmute, hahead⟩

end Sys2Proof.Machine

/-! SUPPORT. The ends of a run while starts are pending, by CLEAN-ABORT and by the events of a step, and their
statements (R13, R78, R168, R170, R182 to R185). -/

namespace Sys2Proof.Machine

/-! ## A run that ends before RUNNING -/

section early

variable {j : Job} {s t : State}

/-- The selected lines let go and the CLEAN record written (R183 steps 1 and 2). -/
def earlyWritten (j : Job) (s : State) : State :=
  writeClean j .aborted none (overLines withdrawOrRelease (linesOf j.lines) s)

theorem endEarly_eq (hjob : s.clean.job = some j) : endEarly s =
    earlyOver (s.clean.runState == .claiming) (returnSlots (earlyWritten j s)) := by
  simp only [endEarly, hjob]
  rfl

theorem earlyWritten_spec (j : Job) (s : State) :
    (earlyWritten j s).journal = ⟨s.journal.records ++ [cleanRecord s j s.journal.seq .aborted none],
      s.journal.reserved - 1, s.journal.seq + 1⟩ ∧
    (earlyWritten j s).clean = { s.clean with slots := s.clean.slots - 1 } ∧
    Wrote s (earlyWritten j s) ∧
    (∀ i ∈ linesOf j.lines,
      ((earlyWritten j s).line i).sansLamp = (withdrawnLine s (s.line i)).sansLamp) ∧
    (∀ i, i ∉ linesOf j.lines → (earlyWritten j s).line i = s.line i) ∧
    Only [.lines, .journal, .attn, .clean] s (earlyWritten j s) := by
  have hf : ∀ i u, OtherLines i u (withdrawOrRelease i u) := fun i u => (withdrawOrRelease_spec i u).2.1
  have hps : ∀ i u, Only [.lines] u (withdrawOrRelease i u) := fun i u => (withdrawOrRelease_spec i u).2.2
  have hin : ∀ i ∈ linesOf j.lines, ((overLines withdrawOrRelease (linesOf j.lines) s).line i).sansLamp =
      (withdrawnLine s (s.line i)).sansLamp := fun i hi =>
    overLines_sansLamp hf hps (linesOf_nodup _) hi fun u hu hline => by
      rw [(withdrawOrRelease_spec i u).1, hline, withdrawnLine, withdrawnLine,
        show u.station = s.station from hu .station (by simp)]
  have hout := fun i hi => overLines_others hf (linesOf j.lines) s i hi
  have hsu := overLines_only hps (linesOf j.lines) s
  unfold earlyWritten
  generalize overLines withdrawOrRelease (linesOf j.lines) s = u at *
  obtain ⟨⟨hjournal, hclean, -, hwrote, -⟩, honly⟩ := writeClean_spec j .aborted none u
  have hujournal : u.journal = s.journal := hsu .journal (by simp)
  have huclean : u.clean = s.clean := hsu .clean (by simp)
  have hlines := line_congr (honly .lines (by simp))
  rw [hujournal, cleanRecord_congr j _ .aborted none (hsu .seconds (by simp)).1 (by rw [huclean])] at hjournal
  refine ⟨hjournal, by rw [hclean, huclean]; rfl,
    (Wrote.of_only hsu (by simp) (congrArg _ hujournal)).trans hwrote, fun i hi => ?_, fun i hi => ?_,
    (hsu.mono (by simp)).trans (honly.mono (by simp))⟩
  · rw [hlines, hin i hi]
  · rw [hlines, hout i hi]

/-- Sources and cooling that stand are read alike. -/
theorem ReadsAlike.of_eq (hsources : t.sources = s.sources) (hcool : t.cool = s.cool) : ReadsAlike t s :=
  ⟨fun x => by rw [source_congr hsources], by rw [hcool], by rw [hcool]⟩

/-- What the lines of a run that has not reached RUNNING are (R27, R176): none of them waits, and none that is
RESERVED is marked. -/
theorem StationOk.runHeld_early (h : StationOk s) (hr : s.clean.runState = .preparing ∨ s.clean.runState = .claiming)
    (hj : s.clean.job = some j) : RunHeld j s ∧
      ∀ i ∈ linesOf j.lines, (s.line i).state = .reserved → (s.line i).cleanMark = false := by
  obtain ⟨-, ⟨-, -, hslots⟩, ⟨-, hwaiting⟩, ⟨-, -, hlines⟩, -, -, hshut⟩ := h
  have hsel : s.selected = linesOf j.lines := by simp only [State.selected, hj]
  refine ⟨⟨hj, by rw [hslots, hj], fun e he hi => ?_, fun hs => ?_⟩, fun i _ hreserved => ?_⟩
  · obtain ⟨-, -, hclaim, -, hprepare⟩ := hlines e.line
    have hw := (hwaiting e.line).mpr (List.mem_map_of_mem he)
    rw [← hsel] at hi
    rcases hr with hr | hr
    · rcases hprepare hr hi with hst | hpour
      · simp [hw] at hst
      · simp [Line.inPour, hw] at hpour
    · simp [hw] at hclaim
      exact hclaim hr hi
  · have hidle := (hshut (by simp [hs])).1
    simp [hidle] at hr
  · obtain ⟨-, -, -, hmark, -⟩ := hlines i
    by_contra hm
    obtain ⟨-, -, hpour⟩ := hmark.mp (by simpa using hm)
    simp [Line.inPour, hreserved] at hpour

/-- Among lines of which none RESERVED is marked, what the early end makes of a line is read from its state. -/
theorem withdrawnLine_eq {l : Line} (h : l.state = .reserved → l.cleanMark = false) : withdrawnLine s l =
    if l.state = .reserved then
      { l with state := if s.station = .running then .ready else .off, lock := .clear }
    else { l with cleanMark := false } := by
  unfold withdrawnLine
  by_cases hr : l.state = .reserved
  · rw [if_neg (by simp [h hr]), if_pos hr, if_pos hr]
  · rw [if_neg hr, if_neg hr]
    cases hm : l.cleanMark with
    | true => rfl
    | false => rw [if_neg Bool.false_ne_true, ← hm]

/-- A run ends from PREPARING or CLAIMING, whatever starts are pending on other lines (R183). -/
theorem endEarly_withdrawn (h : RunHeld j s)
    (hmark : ∀ i ∈ linesOf j.lines, (s.line i).state = .reserved → (s.line i).cleanMark = false) :
    RunWithdrawn j s (endEarly s) := by
  obtain ⟨hwjournal, hwclean, hwrote, hwin, hwout, hsw⟩ := earlyWritten_spec j s
  rw [endEarly_eq h.job]
  generalize earlyWritten j s = w at *
  have hslots : w.clean.slots = s.clean.slots - 1 := by rw [hwclean]
  have hback := slotsBack_journal (rs := [cleanRecord s j s.journal.seq .aborted none]) hwjournal hslots
    (by rw [h.slots]; simp)
  have halike : ReadsAlike w s := .of_eq (hsw .sources (by simp)) (hsw .cool (by simp))
  have hserved := servedAs_returnSlots (hsw.mono (by simp)) halike hback hslots hwout h.starts
  obtain ⟨hvclean, hwv⟩ := returnSlots_frame w
  obtain ⟨hrecords, hstay⟩ := servedIf_leaves (decide (0 < w.clean.slots)) (slotsBack w)
  rw [← returnSlots_eq] at hrecords hstay
  have hvin : ∀ i ∈ linesOf j.lines, (returnSlots w).line i = w.line i := fun i hi => by
    refine hstay i fun hmem => ?_
    rw [show (slotsBack w).starts = s.starts from hsw .starts (by simp)] at hmem
    obtain ⟨e, he, rfl⟩ := List.mem_map.mp hmem
    exact h.starts e he hi
  have hvwrote : Wrote s (returnSlots w) := hwrote.trans (.of_only hwv (by simp) hrecords)
  generalize returnSlots w = v at *
  have hsv : Only [.lines, .starts, .pours, .journal, .attn, .clean] s v :=
    (hsw.mono (by simp)).trans (hwv.mono (by simp))
  have hlink : v.link = s.link := hsv .link (by simp)
  obtain ⟨htclean, hclaimed, hsilent, htattn, hvt⟩ := earlyOver_spec (s.clean.runState == .claiming) v
    (by rw [show v.station = s.station from hsv .station (by simp)]; exact h.station)
  generalize earlyOver (s.clean.runState == .claiming) v = t at *
  have hlines := line_congr (hvt .lines (by simp))
  have hjournal : t.journal = v.journal := hvt .journal (by simp)
  have hwritten : attnWritten s v = attnWritten s t := by
    simp only [attnWritten, source_congr (hvt .sources (by simp)), hjournal]
  obtain ⟨hother, hstarts, hpours, hserved⟩ := hserved
  refine ⟨?_, fun hr => (hclaimed (by simp [hr])).of_link hlink, fun hr => (hsilent (by simp [hr])).trans hlink,
    ?_, fun i hi => ?_, ⟨fun i hi => (hlines i).trans (hother i hi), (hvt .starts (by simp)).trans hstarts,
      (hvt .pours (by simp)).trans hpours, hjournal.trans hserved⟩,
    (hsv.mono (by simp)).trans (hvt.mono (by simp))⟩
  · rw [htclean, hvclean, hwclean]
    rfl
  · rw [htattn, hvwrote.1, hwritten]
    rfl
  · rw [hlines, hvin i hi, hwin i hi, withdrawnLine_eq (hmark i hi)]

theorem RunWithdrawn.only (h : RunWithdrawn j s t) :
    Only [.lines, .starts, .pours, .journal, .attn, .link, .clean] s t := by
  obtain ⟨-, -, -, -, -, -, honly⟩ := h
  exact honly

/-- On an empty list the early end of a run leaves the lines that are not selected (R78). -/
theorem RunWithdrawn.quiet (h : RunWithdrawn j s t) (hq : s.starts = []) :
    t.journal = runJournal s [cleanRecord s j s.journal.seq .aborted none] ∧
      (∀ i, i ∉ linesOf j.lines → t.line i = s.line i) ∧
      Only [.lines, .journal, .attn, .link, .clean] s t := by
  have honly := h.only
  obtain ⟨-, -, -, -, -, ⟨hother, hstarts, hpours, hjournal⟩, -⟩ := h
  rw [slotsReturned_quiet hq] at hother hstarts hpours hjournal
  refine ⟨hjournal, hother, fun p hp => ?_⟩
  cases p
  case starts => exact hstarts
  case pours => exact hpours
  all_goals exact honly _ (by simp_all)

end early

/-! ## CLEAN-ABORT (R185) -/

section abort

variable {j : Job} {p : Progress} {s u : State}

theorem slotsReturned_beginCommand (s : State) (rs : List Record) : slotsReturned (beginCommand s) rs =
    { slotsReturned s rs with port := (beginCommand s).port } := by
  have hserve := serve_with_port (beginCommand s).port { s with journal := runJournal s rs }
  unfold slotsReturned servedIf
  simp only [decide_eq_true_eq]
  split
  next hlt => rw [if_pos (by exact hlt)]; exact hserve
  next hlt => rw [if_neg (by exact hlt)]; rfl

/-- The walk reads nothing of the port. -/
theorem ServedAs.of_beginCommand {aside : List LineNo} {rs : List Record}
    (h : ServedAs aside (slotsReturned (beginCommand s) rs) u) :
    ServedAs aside (slotsReturned s rs) { u with port := s.port } := by
  rw [slotsReturned_beginCommand] at h
  exact h

theorem RunWithdrawn.of_beginCommand (h : RunWithdrawn j (beginCommand s) u) :
    RunWithdrawn j s { u with port := s.port } := by
  obtain ⟨hclean, hclaimed, hsilent, hattn, hlines, hserved, honly⟩ := h
  exact ⟨hclean, hclaimed, hsilent, hattn, hlines, hserved.of_beginCommand, honly.of_beginCommand⟩

theorem RunEnds.of_beginCommand {result : RunResult} (h : RunEnds result j p (beginCommand s) u) :
    RunEnds result j p s { u with port := s.port } := by
  obtain ⟨hclean, hcool, hreq, hdrew, hattn, hlines, hserved, honly⟩ := h
  have hport : Only [.port] u { u with port := s.port } := by
    intro q hq; cases q <;> simp_all [Part.same]
  exact ⟨hclean, hcool, hreq, hdrew.congr rfl rfl rfl rfl, hattn,
    fun i hi => (hlines i hi).congr rfl hport (by simp), hserved.of_beginCommand, honly.of_beginCommand⟩

theorem RunEnds.only {result : RunResult} (h : RunEnds result j p s u) :
    Only [.lines, .starts, .pours, .journal, .sources, .attn, .link, .cool, .clean] s u := by
  obtain ⟨-, -, -, -, -, -, -, honly⟩ := h
  exact honly

theorem RunHeld.beginCommand (h : RunHeld j s) : RunHeld j (beginCommand s) :=
  ⟨h.job, h.slots, h.starts, h.station⟩

/-- A run that is not IDLE is ended, and the answer tells from where (R185). -/
theorem exec_cleanAbort {ps : List Part} (h : s.accepts) (hs : s.station ≠ .unconfigured)
    (hr : s.clean.runState ≠ .idle) (hu : abortRun (beginCommand s) = u) (honly : Only ps (beginCommand s) u)
    (hps : .port ∉ ps ∧ .now ∉ ps) : exec .cleanAbort s = .next (answer .ok
      (bytes16 s.clean.runNumber ++ enc1 s.clean.runState.code) { u with port := s.port }) := by
  have hbody : cleanAbortBody (beginCommand s) =
      (u, .ok, bytes16 s.clean.runNumber ++ enc1 s.clean.runState.code) := by
    have hr' : (beginCommand s).clean.runState ≠ .idle := hr
    simp only [cleanAbortBody, beginCommand_station, beq_eq_false_iff_ne.mpr hr', hs, decide_false,
      Bool.or_self, Bool.false_eq_true, if_false, accept, hu]
    rfl
  exact congrArg _ (command_of_only h hbody honly hps).1

end abort

/-- Settles O26: a run that has not reached RUNNING is withdrawn. -/
theorem cleanAbortCommand : Obligations.CleanAbortCommand := by
  intro s h
  refine ⟨fun hs => congrArg _ (command_unchanged h ?_), fun j hs hok hj hr => ?_⟩
  · have hrefused : s.station = .unconfigured ∨ (beginCommand s).clean.runState = .idle := hs
    rcases hrefused with hs | hs <;> simp [cleanAbortBody, hs, refuse]
  · obtain ⟨hheld, hmark⟩ := hok.runHeld_early hr hj
    have hearly : abortRun (beginCommand s) = endEarly (beginCommand s) := by
      rcases hr with hr | hr <;> simp only [abortRun, beginCommand, hr]
    have hwithdrawn := endEarly_withdrawn hheld.beginCommand hmark
    have hexec := exec_cleanAbort h hheld.station (by rcases hr with hr | hr <;> simp [hr]) hearly
      hwithdrawn.only (by simp)
    have hcode : enc1 s.clean.runState.code = [if s.clean.runState = .preparing then 1 else 2] := by
      rcases hr with hr | hr <;> rw [hr] <;> rfl
    rw [hcode] at hexec
    exact ⟨_, hexec, hwithdrawn.of_beginCommand, hwithdrawn.of_beginCommand.quiet⟩

/-! ## The ends of a run from RUNNING (R168, R170, R182) -/

section running

variable {p : Progress} {s : State}

theorem exec_runLimitExpiry (hl : s.rstnLow = false) (hr : s.clean.runState = .running)
    (hp : s.clean.progress = some p) : exec .runLimitExpiry s = .next (endRunning .failed s) := by
  simp [exec, execRunLimitExpiry, powered, hl, stepEvent_running _ hr hp]

theorem takeNext_leave (h : (s.stepAt p.step).next = .leave) : takeNext p s = endRunning .completed s := by
  simp only [takeNext, h]

theorem takeFaultNext_leave (h : (s.stepAt p.step).faultNext = .leave) :
    takeFaultNext p s = endRunning .failed s := by
  simp only [takeFaultNext, h]

end running

/-- Settles O27: each end of a run from RUNNING is one of the run's own ends, by its result. -/
theorem runEnd : Obligations.RunEnd := by
  intro s j p hl hs hok hr hj hp st test
  obtain ⟨j', hheld⟩ := hok.runHeld hr
  obtain rfl : j' = j := Option.some.inj (hheld.job.symm.trans hj)
  rw [exec_dwellExpiry hl hr hp, exec_limitExpiry hl hr hp, exec_runLimitExpiry hl hr hp]
  have hends := fun result => endRunning_ends result hheld hp
  refine ⟨fun h => ?_, ⟨_, rfl, hends .failed⟩, fun hphase htest hnext => ⟨_, rfl, ?_⟩,
    fun hphase hlimit htest hnext => ⟨_, rfl, ?_⟩, fun hphase hlimit hnext => ⟨_, rfl, ?_⟩⟩
  · have haborted := endRunning_ends .aborted hheld.beginCommand hp
    have hrunning : abortRun (beginCommand s) = endRunning .aborted (beginCommand s) := by
      simp only [abortRun, beginCommand, hr]
    have hexec := exec_cleanAbort h hheld.station (by simp [hr]) hrunning haborted.only (by simp)
    rw [hr] at hexec
    exact ⟨_, hexec, haborted.of_beginCommand⟩
  · rw [dwellExpires_passed hphase htest, takeNext_leave hnext]
    exact hends .completed
  · rw [dwellExpires_single hphase htest hlimit, takeFaultNext_leave hnext]
    exact hends .failed
  · rw [limitExpires_testing hphase hlimit, takeFaultNext_leave hnext]
    exact hends .failed

end Sys2Proof.Machine

/-! SUPPORT. CLEAN-START: its tests, the lines that it reserves, and the run that it accepts, and the statement
(R27, R67, R174 to R176). -/

namespace Sys2Proof.Machine

/-! ## The lines reserved (R27) -/

section reserve

variable {s : State} {i : LineNo}

/-- A line is reserved, or marked while it has a pour (R27). -/
theorem reserveLine_line (i : LineNo) (s : State) :
    ((reserveLine i s).line i).sansLamp = (reservedLine s.now (s.line i)).sansLamp := by
  unfold reserveLine
  split
  next hst =>
    obtain ⟨hline, -, -⟩ := setState_spec i .reserved s
    simpa [reservedLine, hst] using hline.1
  next hst =>
    obtain ⟨hline, -, -, -⟩ := refuseEntry_spec i .reserved s
    simpa [reservedLine, hst] using hline.1
  next hst =>
    obtain ⟨hline, -, -⟩ := setState_spec i .reserved (s.setLine i { s.line i with lock := .clear })
    rw [line_setLine_same] at hline
    simpa [reservedLine, hst] using hline.1
  next hst => simp [reservedLine, hst]
  next hst => simp [reservedLine, hst]
  next => unfold reservedLine; split <;> simp_all

/-- The entry of a line that was waiting leaves the list (R27). -/
theorem reserveLine_starts (i : LineNo) (s : State) : (reserveLine i s).starts =
    if (s.line i).state = .waiting then s.starts.filter fun e => e.line != i else s.starts := by
  unfold reserveLine
  split
  next hst =>
    obtain ⟨-, -, honly⟩ := setState_spec i .reserved s
    rw [if_neg (by simp [hst])]
    exact honly .starts (by simp)
  next hst =>
    obtain ⟨-, -, hstarts, -⟩ := refuseEntry_spec i .reserved s
    simpa [hst] using hstarts
  next hst =>
    obtain ⟨-, -, honly⟩ := setState_spec i .reserved (s.setLine i { s.line i with lock := .clear })
    rw [if_neg (by simp [hst])]
    exact honly .starts (by simp)
  next hst => simp [hst]
  next hst => simp [hst]
  next => simp_all

/-- The list without the entries of the selected lines that were waiting (R27). -/
theorem overLines_reserveLine_starts {is : List LineNo} (hn : is.Nodup) (s : State) :
    (overLines reserveLine is s).starts =
      s.starts.filter fun e => !(is.contains e.line && (s.line e.line).state == .waiting) := by
  induction is generalizing s with
  | nil => simp
  | cons i rest ih =>
    obtain ⟨hi, hrest⟩ := List.nodup_cons.mp hn
    have hstate : ∀ e : StartEntry, e.line ≠ i →
        ((reserveLine i s).line e.line).state = (s.line e.line).state := fun e he => by
      rw [(reserveLine_frame i s).1 e.line he]
    rw [overLines_cons, ih hrest, reserveLine_starts]
    split
    next hw =>
      rw [List.filter_filter]
      refine List.filter_congr fun e _ => ?_
      by_cases he : e.line = i <;> simp [he, hw, hstate]
    next hw =>
      refine List.filter_congr fun e _ => ?_
      by_cases he : e.line = i <;> simp [he, hw, hi, hstate]

/-- The selected lines, each reserved or marked as it was (R27). -/
theorem overLines_reserveLine {is : List LineNo} (hn : is.Nodup) (s : State) (i : LineNo) :
    ((overLines reserveLine is s).line i).sansLamp =
      (if i ∈ is then reservedLine s.now (s.line i) else s.line i).sansLamp := by
  have hf : ∀ i u, OtherLines i u (reserveLine i u) := fun i u => (reserveLine_frame i u).1
  split
  next hi =>
    refine overLines_sansLamp hf (fun i u => (reserveLine_frame i u).2) hn hi fun u hu hline => ?_
    rw [reserveLine_line, hline, show u.now = s.now from hu .now (by simp)]
  next hi => rw [overLines_others hf is s i hi]

/-- A line with a pour keeps its state when it is marked, and no other line takes it (R27). -/
theorem reservedLine_pouring (now : Nat) (l : Line) :
    ((reservedLine now l).state = .pouring ∨ (reservedLine now l).state = .afterRun) ↔
      (l.state = .pouring ∨ l.state = .afterRun) := by
  unfold reservedLine
  split <;> simp_all

end reserve

/-! ## A run accepted (R175) -/

section accepted

variable {entry : Nat} {lines : Byte} {s t : State}

/-- A run accepted, with its slots reserved and its lines reserved or marked (R175 steps 1 to 4). -/
def runPrepared (entry : Nat) (lines : Byte) (s : State) : State :=
  modClean (fun c => { c with runState := .preparing }) (overLines reserveLine (linesOf lines)
    (modClean (fun c => { c with
        runNumber := c.runNumber + 1, job := some { entry, lines, start := s.seconds },
        slots := 1 + (linesOf lines).length })
      { s with journal := { s.journal with
          reserved := s.journal.reserved + (1 + (linesOf lines).length) } }))

theorem acceptRun_eq (entry : Nat) (lines : Byte) (s : State) :
    acceptRun entry lines s = checkPrepared (runPrepared entry lines s) := rfl

/-- The sequencer of a run that is preparing (R173, R175). -/
def preparedClean (entry : Nat) (lines : Byte) (s : State) : Cleaning :=
  { s.clean with
    runNumber := s.clean.runNumber + 1, job := some { entry, lines, start := s.seconds },
    slots := 1 + (linesOf lines).length, runState := .preparing }

/-- What the acceptance of a run leaves outside the sequencer and the link (R27, R67). -/
structure RunReserved (lines : Byte) (s t : State) : Prop where
  journal : t.journal =
    { s.journal with reserved := s.journal.reserved + (1 + (linesOf lines).length) }
  starts : t.starts = s.starts.filter fun e =>
    !((linesOf lines).contains e.line && (s.line e.line).state == .waiting)
  lines : ∀ i : LineNo, (t.line i).sansLamp =
    (if i ∈ linesOf lines then reservedLine s.now (s.line i) else s.line i).sansLamp
  only : Only [.lines, .starts, .journal, .link, .clean] s t

theorem runPrepared_spec (entry : Nat) (lines : Byte) (s : State) :
    (runPrepared entry lines s).clean = preparedClean entry lines s ∧
      (runPrepared entry lines s).link = s.link ∧ RunReserved lines s (runPrepared entry lines s) := by
  obtain ⟨a, ha⟩ : ∃ a, a = modClean (fun c => { c with
        runNumber := c.runNumber + 1, job := some { entry, lines, start := s.seconds },
        slots := 1 + (linesOf lines).length })
      { s with journal := { s.journal with
          reserved := s.journal.reserved + (1 + (linesOf lines).length) } } := ⟨_, rfl⟩
  have hsa : Only [.journal, .clean] s a := by
    rw [ha]; intro p hp; cases p <;> simp_all [Part.same]
  have hab := overLines_only (fun i u => (reserveLine_frame i u).2) (linesOf lines) a
  have hstarts := overLines_reserveLine_starts (linesOf_nodup lines) a
  have hlines := overLines_reserveLine (linesOf_nodup lines) a
  have hline : ∀ i, a.line i = s.line i := line_congr (hsa .lines (by simp))
  have e : runPrepared entry lines s = modClean (fun c => { c with runState := .preparing })
      (overLines reserveLine (linesOf lines) a) := by rw [ha]; rfl
  simp only [hline, show a.starts = s.starts from hsa .starts (by simp),
    show a.now = s.now from hsa .now (by simp)] at hstarts hlines
  rw [e]
  generalize overLines reserveLine (linesOf lines) a = b at *
  have hbc := modClean_only (fun c => { c with runState := .preparing }) b
  refine ⟨?_, (hab .link (by simp)).trans (hsa .link (by simp)), ⟨?_, hstarts, hlines,
    ((hsa.mono (by simp)).trans (hab.mono (by simp))).trans (hbc.mono (by simp))⟩⟩
  · rw [modClean_clean, show b.clean = a.clean from hab .clean (by simp), ha]
    rfl
  · rw [modClean_journal, show b.journal = a.journal from hab .journal (by simp), ha]
    rfl

/-- The run claims at once unless a selected line is still pouring (R175 step 5, R176). -/
theorem nonePouring_runPrepared : NonePouring (runPrepared entry lines s) ↔
    ¬ ∃ i ∈ linesOf lines, (s.line i).state = .pouring ∨ (s.line i).state = .afterRun := by
  obtain ⟨hclean, -, hreserved⟩ := runPrepared_spec entry lines s
  have hsel : (runPrepared entry lines s).selected = linesOf lines := by
    simp only [State.selected, hclean, preparedClean]
  have hstate : ∀ i ∈ linesOf lines, ((runPrepared entry lines s).line i).state =
      (reservedLine s.now (s.line i)).state := fun i hi => by
    have hline := hreserved.lines i
    rw [if_pos hi] at hline
    exact (congrArg Line.state hline :)
  simp only [NonePouring, hsel, ← not_or, not_exists, not_and]
  refine forall₂_congr fun i hi => ?_
  rw [hstate i hi, reservedLine_pouring]

/-- A run accepted while a selected line is still pouring prepares (R175). -/
theorem acceptRun_pouring
    (h : ∃ i ∈ linesOf lines, (s.line i).state = .pouring ∨ (s.line i).state = .afterRun) :
    acceptRun entry lines s = runPrepared entry lines s :=
  checkPrepared_stays fun ⟨_, hnone⟩ => nonePouring_runPrepared.mp hnone h

/-- A run accepted while no selected line is pouring claims (R175, R176). -/
theorem acceptRun_claiming
    (h : ¬ ∃ i ∈ linesOf lines, (s.line i).state = .pouring ∨ (s.line i).state = .afterRun) :
    acceptRun entry lines s = enterClaiming (runPrepared entry lines s) :=
  checkPrepared_claiming (congrArg Cleaning.runState (runPrepared_spec entry lines s).1)
    (nonePouring_runPrepared.mpr h)

/-- A run accepted (R175): its sequencer, its STATUS when it claims, and what it reserves. -/
structure RunAccepted (entry : Nat) (lines : Byte) (s t : State) : Prop where
  runState : t.clean.runState = if ∃ i ∈ linesOf lines,
      (s.line i).state = .pouring ∨ (s.line i).state = .afterRun
    then .preparing else .claiming
  clean : t.clean = { preparedClean entry lines s with
    runState := t.clean.runState,
    age := if t.clean.runState = .claiming then 0 else s.clean.age,
    ahead := if t.clean.runState = .claiming then 0 else s.clean.ahead }
  claims : t.clean.runState = .claiming → StatusRequested s t
  prepares : t.clean.runState = .preparing → t.link = s.link
  reserved : RunReserved lines s t

theorem acceptRun_accepted (entry : Nat) (lines : Byte) (hs : s.station ≠ .unconfigured) :
    RunAccepted entry lines s (acceptRun entry lines s) := by
  obtain ⟨hclean, hlink, hreserved⟩ := runPrepared_spec entry lines s
  by_cases h : ∃ i ∈ linesOf lines, (s.line i).state = .pouring ∨ (s.line i).state = .afterRun
  · rw [acceptRun_pouring h]
    have hstate : (runPrepared entry lines s).clean.runState = .preparing := by rw [hclean]; rfl
    refine ⟨by rw [hstate, if_pos h], ?_, fun hr => ?_, fun _ => hlink, hreserved⟩
    · rw [hstate, hclean]; rfl
    · simp [hstate] at hr
  · rw [acceptRun_claiming h]
    obtain ⟨hclaim, hreq, honly⟩ := enterClaiming_spec (runPrepared entry lines s)
    have hstate : (enterClaiming (runPrepared entry lines s)).clean.runState = .claiming := by
      rw [hclaim]
    obtain ⟨hjournal, hstarts, hlines, hfr⟩ := hreserved
    refine ⟨by rw [hstate, if_neg h], ?_, fun _ => ?_, fun hr => ?_,
      ⟨(honly .journal (by simp)).trans hjournal, (honly .starts (by simp)).trans hstarts,
        fun i => (congrArg Line.sansLamp (line_congr (honly .lines (by simp)) i)).trans (hlines i),
        hfr.trans (honly.mono (by simp))⟩⟩
    · rw [hstate, hclaim, hclean]; rfl
    · exact (hreq (by rwa [show (runPrepared entry lines s).station = s.station from
        hfr .station (by simp)])).of_link hlink
    · simp [hstate] at hr

end accepted

/-! ## The command (R174, R175) -/

section command

variable {entry lines : Byte} {s : State}

/-- The operands that R174 refuses: an entry that is none, no line, or a line that is not configured. -/
def BadCleanStart (entry lines : Byte) (s : State) : Prop :=
  (entry ≠ 1 ∧ entry ≠ 2) ∨ lines = 0 ∨ ∃ i ∈ linesOf lines, s.configured i = false

theorem badCleanStart_iff (entry lines : Byte) (s : State) : BadCleanStart entry lines s ↔
    (!inRange 1 2 entry.toNat || decide (lines = 0) || !(linesOf lines).all s.configured) = true := by
  have hentry : inRange 1 2 entry.toNat = false ↔ entry ≠ 1 ∧ entry ≠ 2 := by
    simp only [inRange, Bool.and_eq_false_iff, decide_eq_false_iff_not]
    bv_omega
  simp [BadCleanStart, hentry, or_assoc]

theorem freeSpace_lt_iff (s : State) (n : Nat) :
    s.freeSpace < 1 + n ↔ s.journal.records.length + s.journal.reserved + (1 + n) > 64 := by
  unfold State.freeSpace
  omega

theorem cleanStartBody_busy (entry lines : Byte)
    (h : s.station ≠ .running ∨ s.clean.runState ≠ .idle) :
    cleanStartBody entry lines s = refuse .badState s := by
  unfold cleanStartBody
  split
  next => rfl
  next hs => rw [if_pos (h.resolve_left hs)]

theorem cleanStartBody_muted (entry lines : Byte) (hs : s.station = .running)
    (hr : s.clean.runState = .idle) (hm : s.link.mute = true) :
    cleanStartBody entry lines s = refuse .muted s := by
  simp [cleanStartBody, hs, hr, hm]

/-- The last two tests, on the operands and on the room in the journal (R174). -/
theorem cleanStartBody_idle (entry lines : Byte) (hs : s.station = .running)
    (hr : s.clean.runState = .idle) (hm : s.link.mute = false) :
    (BadCleanStart entry lines s → cleanStartBody entry lines s = refuse .badArg s) ∧
    (¬ BadCleanStart entry lines s → s.freeSpace < 1 + (linesOf lines).length →
      cleanStartBody entry lines s = refuse .journalFull s) ∧
    (¬ BadCleanStart entry lines s → ¬ s.freeSpace < 1 + (linesOf lines).length →
      cleanStartBody entry lines s = accept (bytes16 (acceptRun entry.toNat lines s).clean.runNumber ++
        enc1 (acceptRun entry.toNat lines s).clean.runState.code) (acceptRun entry.toNat lines s)) := by
  simp only [cleanStartBody, hs, hr, hm, ne_eq, not_true_eq_false, if_false, Bool.false_eq_true,
    badCleanStart_iff]
  refine ⟨fun hbad => if_pos hbad, fun hgood hfull => ?_, fun hgood hroom => ?_⟩
  · rw [if_neg hgood, if_pos hfull]
  · rw [if_neg hgood, if_neg hroom]

/-- The run state that the answer carries (R175). -/
theorem RunAccepted.code {entry : Nat} {t : State} (h : RunAccepted entry lines s t) :
    enc1 t.clean.runState.code = [if t.clean.runState = .preparing then 1 else 2] := by
  rw [h.runState]
  split <;> rfl

end command

/-- Settles O25: the tests in R174's order, and the run accepted. -/
theorem cleanStartCommand : Obligations.CleanStartCommand := by
  intro entry lines s h n badArg
  have hidle := cleanStartBody_idle (s := beginCommand s) entry lines
  have hfree := freeSpace_lt_iff (beginCommand s) n
  refine ⟨fun hbusy => ?_, fun hs hr hm => ?_, fun hs hr hm hbad => ?_, fun hs hr hm hgood hfull => ?_,
    fun hs hr hm hgood hroom => ?_⟩
  · exact congrArg _ (command_unchanged h (cleanStartBody_busy entry lines hbusy))
  · exact congrArg _ (command_unchanged h (cleanStartBody_muted entry lines hs hr hm))
  · obtain ⟨hrefused, -, -⟩ := hidle hs hr hm
    exact congrArg _ (command_unchanged h (hrefused hbad))
  · obtain ⟨-, hrefused, -⟩ := hidle hs hr hm
    exact congrArg _ (command_unchanged h (hrefused hgood (hfree.mpr hfull)))
  · obtain ⟨-, -, hbody⟩ := hidle hs hr hm
    have haccepted := acceptRun_accepted (s := beginCommand s) entry.toNat lines (by simp [hs])
    specialize hbody hgood (mt hfree.mp (Nat.not_lt.mpr hroom))
    rw [accept, haccepted.code] at hbody
    obtain ⟨hrunState, hclean, hclaims, hprepares, ⟨hjournal, hstarts, hlines, honly⟩⟩ := haccepted
    generalize acceptRun entry.toNat lines (beginCommand s) = u at *
    obtain ⟨hcommand, hframe⟩ := command_of_only h hbody honly (by simp)
    have hnumber : u.clean.runNumber = s.clean.runNumber + 1 := congrArg Cleaning.runNumber hclean
    have hjob : u.clean.job = some { entry := entry.toNat, lines, start := s.seconds } :=
      congrArg Cleaning.job hclean
    refine ⟨_, congrArg _ hcommand, hnumber, hjob, congrArg Cleaning.slots hclean, hjournal, hrunState,
      hclean.trans (by rw [hnumber, hjob]; rfl), fun hclaiming => ⟨?_, ?_, hclaims hclaiming⟩, hprepares,
      hstarts, hlines, hframe⟩
    · exact (congrArg Cleaning.age hclean).trans (if_pos hclaiming)
    · exact (congrArg Cleaning.ahead hclean).trans (if_pos hclaiming)

end Sys2Proof.Machine

/-! SUPPORT. What the operations of the block let stand: the configuration, the attention flags that are set,
MUTE, station seconds and RUNNING (R39, R49, R65, R119, R190, R191). -/

namespace Sys2Proof.Machine

/-! ## What an operation lets stand -/

/-- The parts of the state that few commands move. -/
def watched : List Part := [.config, .attn, .link, .seconds, .station]

/-- Outside the parts that it may move an operation lets the configuration stand, and station seconds; it
clears no attention flag and no MUTE, and does not leave RUNNING. -/
structure Stands (moved : List Part) (s t : State) : Prop where
  config : .config ∉ moved → t.config = s.config
  attn : .attn ∉ moved → ∀ f, s.attn.set f = s.attn → t.attn.set f = t.attn
  mute : .link ∉ moved → s.link.mute = true → t.link.mute = true
  seconds : .seconds ∉ moved → t.seconds = s.seconds
  running : .station ∉ moved → s.station = .running → t.station = .running

theorem Attention.set_comm (a : Attention) (f g : AttnFlag) : (a.set f).set g = (a.set g).set f := by
  cases f <;> cases g <;> rfl

section stands

variable {m ps : List Part} {s t u : State}

theorem Stands.refl (s : State) : Stands m s s :=
  ⟨fun _ => rfl, fun _ _ => id, fun _ => id, fun _ => rfl, fun _ => id⟩

theorem Stands.trans (h : Stands m s t) (h' : Stands m t u) : Stands m s u where
  config hm := (h'.config hm).trans (h.config hm)
  attn hm f := h'.attn hm f ∘ h.attn hm f
  mute hm := h'.mute hm ∘ h.mute hm
  seconds hm := (h'.seconds hm).trans (h.seconds hm)
  running hm := h'.running hm ∘ h.running hm

/-- The same, from the last operation backwards. -/
theorem Stands.after (h' : Stands m t u) (h : Stands m s t) : Stands m s u := h.trans h'

/-- What moves nothing may stand beside what moves something. -/
theorem Stands.beside (h : Stands [] s t) : Stands m s t :=
  ⟨fun _ => h.config (by simp), fun _ => h.attn (by simp), fun _ => h.mute (by simp),
    fun _ => h.seconds (by simp), fun _ => h.running (by simp)⟩

/-- An operation made in some states and not in others. -/
theorem Stands.ite {c : Prop} [Decidable c] (h : Stands m s t) (h' : Stands m s u) :
    Stands m s (if c then t else u) := by
  split
  · exact h
  · exact h'

/-- An operation whose frame holds no part that is watched, but those it may move. -/
theorem Stands.of_only (h : Only ps s t) (hps : ∀ p ∈ ps, p ∈ watched → p ∈ m) : Stands m s t := by
  have same : ∀ p, p ∈ watched → p ∉ m → p.same s t := fun p hw hm => h p fun hp => hm (hps p hp hw)
  refine ⟨same .config (by decide), fun hm f hf => ?_, fun hm hs => ?_,
    fun hm => (same .seconds (by decide) hm).1, fun hm hs => ?_⟩
  · have e : t.attn = s.attn := same .attn (by decide) hm
    rw [e, hf]
  · have e : t.link = s.link := same .link (by decide) hm
    rw [e, hs]
  · have e : t.station = s.station := same .station (by decide) hm
    rw [e, hs]

/-- An operation that leaves every part that is watched. -/
theorem Stands.of_eq (hc : t.config = s.config) (ha : t.attn = s.attn) (hl : t.link = s.link)
    (hs : t.seconds = s.seconds) (hst : t.station = s.station) : Stands m s t :=
  ⟨fun _ => hc, fun _ f hf => by rw [ha, hf], fun _ hm => by rw [hl, hm], fun _ => hs,
    fun _ hr => by rw [hst, hr]⟩

/-- An operation on the Link Controller that does not clear MUTE. -/
theorem stands_modLink {f : Link → Link} (h : s.link.mute = true → (f s.link).mute = true) :
    Stands [] s (modLink f s) := ⟨fun _ => rfl, fun _ _ => id, fun _ => h, fun _ => rfl, fun _ => id⟩

/-- A flag that is set stays set (R190). -/
theorem stands_raise (f : AttnFlag) : Stands [] s (raise f s) :=
  ⟨fun _ => rfl, fun _ g hg => by rw [raise_attn, Attention.set_comm, hg], fun _ => id, fun _ => rfl,
    fun _ => id⟩

theorem stands_setLine (i : LineNo) (l : Line) : Stands [] s (s.setLine i l) :=
  .of_only (setLine_only s i l) (by decide)

theorem stands_setSource (x : SourceNo) (r : SourceRec) : Stands [] s (s.setSource x r) :=
  .of_only (setSource_only s x r) (by decide)

theorem stands_setPeer (n : Fin 32) (p : Option PeerRec) : Stands [] s (s.setPeer n p) :=
  .of_only (setPeer_only s n p) (by decide)

theorem stands_modClean (f : Cleaning → Cleaning) : Stands [] s (modClean f s) :=
  .of_only (modClean_only f s) (by decide)

theorem stands_selectFrame (s : State) : Stands [] s (selectFrame s) :=
  stands_modLink (s := s) (f := Link.chooseFrame) fun h => by rw [chooseFrame_mute, h]

theorem stands_requestStatus (s : State) : Stands [] s (requestStatus s) :=
  .ite (.refl s) (.after (stands_selectFrame _) (stands_modLink (s := s)
    (f := fun k => { k with statusReq := true }) id))

theorem stands_overLines {f : LineNo → State → State} (h : ∀ i s, Stands m s (f i s)) (is : List LineNo)
    (s : State) : Stands m s (overLines f is s) := by
  induction is generalizing s with
  | nil => exact .refl s
  | cons i rest ih => exact (h i s).trans (ih _)

theorem stands_foldSources {f : SourceNo → State → State} (h : ∀ x s, Stands m s (f x s))
    (xs : List SourceNo) (s : State) : Stands m s (xs.foldl (fun s x => f x s) s) := by
  induction xs generalizing s with
  | nil => exact .refl s
  | cons x rest ih => exact (h x s).trans (ih _)

end stands

/-! ## Lines, records and the Source View -/

section sources

variable (x : SourceNo) (s : State)

theorem stands_setState (i : LineNo) (st : LineState) : Stands [] s (setState i st s) :=
  .of_only (setState_spec i st s).2.2 (by decide)

theorem stands_refuseEntry (i : LineNo) (st : LineState) : Stands [] s (refuseEntry i st s) :=
  .of_only (refuseEntry_spec i st s).2.2.2 (by decide)

theorem stands_setLock (i : LineNo) (r : LockReason) : Stands [] s (setLock i r s) :=
  .after (stands_raise _) (stands_setLine i _)

theorem stands_serve : Stands [] s (serve s) := .of_only (serve_only s) (by decide)

theorem stands_request (i : LineNo) (kind : StartKind) : Stands [] s (request i kind s) :=
  .of_only (request_only i kind s) (by decide)

theorem stands_endPour (i : LineNo) (reason : EndReason) : Stands [] s (endPour i reason s) := by
  cases hp : (s.line i).pour with
  | none => simp only [endPour, hp]; exact .refl s
  | some p => exact .of_only (endPour_spec i reason s p hp).2.2 (by decide)

theorem stands_endIfPouring (i : LineNo) (reason : EndReason) : Stands [] s (endIfPouring i reason s) :=
  .ite (stands_endPour s i reason) (.refl s)

/-- The fill test sets JOURNAL-LEVEL at most (R76). -/
theorem stands_writeRecord (mk : BitVec 16 → Record) : Stands [] s (writeRecord mk s) := by
  have hjournal : ∀ j, Stands [] s { s with journal := j } := fun _ => .of_eq rfl rfl rfl rfl rfl
  exact .ite (.after (stands_raise _) (hjournal _)) (hjournal _)

/-- The low test sets SOURCE-LOW at most (R84). -/
theorem stands_lowTest : Stands [] s (lowTest x s) := by
  unfold lowTest
  split
  · exact .ite (.after (stands_raise _) (stands_setSource x _)) (.refl s)
  · exact .refl s

theorem stands_addOwn (volume : Nat) : Stands [] s (addOwn x volume s) :=
  .after (stands_lowTest x _) (stands_setSource x _)

/-- Setting EMPTY sets SOURCE-EMPTY and requests a STATUS (R86). -/
theorem stands_emptyEffects : Stands [] s (emptyEffects x s) := by
  have hlamps : ∀ u, Stands [] u (relampSource x u) := fun u =>
    .of_only (overLines_only relamp_only _ u) (by decide)
  have hrefuse : ∀ u, Stands [] u (refuseSource x u) := fun u =>
    stands_overLines (fun i v => stands_refuseEntry v i .ready) _ u
  exact .after (hlamps _) (.after (hrefuse _) (.after (stands_requestStatus _) (stands_raise _)))

theorem stands_setEmpty : Stands [] s (setEmpty x s) :=
  .ite (.refl s) (.after (stands_emptyEffects x _) (stands_setSource x _))

theorem stands_newGeneration (gen : BitVec 8) (full : Nat) (empty : Bool) :
    Stands [] s (newGeneration x gen full empty s) := by
  have hlamps : ∀ u, Stands [] u (relampSource x u) := fun u =>
    .of_only (overLines_only relamp_only _ u) (by decide)
  have hlift : ∀ is u, Stands [] u (overLines liftFoam is u) := fun is u =>
    .of_only (overLines_only liftFoam_only is u) (by decide)
  exact .after (stands_lowTest x _) (.after (hlamps _) (.after (hlift _ _) (stands_setSource x _)))

theorem stands_adopt (gen : BitVec 8) (full : Nat) (empty : Bool) :
    Stands [] s (adopt x gen full empty s) :=
  .ite (.after (stands_emptyEffects x _) (stands_newGeneration x s _ _ _)) (stands_newGeneration x s _ _ _)

theorem stands_takeChange (b : ChangeBody) : Stands [] s (takeChange b s) := by
  unfold takeChange
  split
  · simp only
    split
    · exact stands_adopt _ s _ _ _
    · exact .after (stands_lowTest _ _) (stands_setSource _ _)
    · exact .refl s
  · exact .refl s

theorem stands_carryStep (stored new : Option LinkEntry) : Stands [] s (carryStep x stored new s) := by
  unfold carryStep
  simp only
  split
  · exact .ite (stands_setSource x _) (.refl s)
  · exact .refl s

theorem stands_equalStep (new : Option LinkEntry) : Stands [] s (equalStep x new s) := by
  unfold equalStep
  simp only
  split
  · have hfull : ∀ n : Nat, Stands [] s (if (s.source x).full = 0 then
        s.setSource x { s.source x with full := n } else s) := fun _ =>
      .ite (stands_setSource x _) (.refl s)
    exact .ite (.ite (.after (stands_setEmpty x _) (hfull _)) (hfull _)) (.refl s)
  · exact .refl s

theorem stands_processSource (stored new : List LinkEntry) :
    Stands [] s (processSource stored new x s) := by
  unfold processSource
  simp only
  split
  · exact .ite (stands_adopt x s _ _ _) (.after (stands_equalStep x _ _) (stands_carryStep x s _ _))
  · exact stands_carryStep x s _ _

theorem stands_statusTaken (n : Fin 32) (b : StatusBody) : Stands [] s (statusTaken n b s) :=
  .after (stands_foldSources stands_lowTest _ _) (.after (stands_setPeer n _)
    (stands_foldSources (fun x u => stands_processSource x u _ _) _ s))

end sources

/-! ## Cleaning -/

section cleaning

variable (s : State)

theorem stands_enterStep (n runFrom : Nat) : Stands [] s (enterStep n runFrom s) :=
  .of_only (enterStep_spec n runFrom s).2 (by decide)

theorem stands_writeRunRecord (mk : BitVec 16 → Record) : Stands [] s (writeRunRecord mk s) :=
  .after (stands_modClean _) (stands_writeRecord s mk)

theorem stands_writeClean (j : Job) (result : RunResult) (last : Option Nat) :
    Stands [] s (writeClean j result last s) := stands_writeRunRecord s _

theorem stands_wasteLine (j : Job) (i : LineNo) : Stands [] s (wasteLine j i s) :=
  .ite (.refl s) (.after (stands_addOwn _ _ _) (.after (stands_setLine i _) (stands_writeRunRecord s _)))

theorem stands_releaseLine (failed : Bool) (i : LineNo) : Stands [] s (releaseLine failed i s) :=
  .ite (.after (stands_setState _ i _) (stands_setLock s i _))
    (.after (stands_setState _ i _) (stands_setLine i _))

theorem stands_returnSlots : Stands [] s (returnSlots s) :=
  .of_only (returnSlots_frame s).2 (by decide)

/-- The end of a run sets CLEAN-END and requests a STATUS (R182). -/
theorem stands_endRunning (result : RunResult) : Stands [] s (endRunning result s) := by
  cases hjob : s.clean.job with
  | none => simp only [endRunning, hjob]; exact .refl s
  | some j =>
    cases hprog : s.clean.progress with
    | none => simp only [endRunning, hjob, hprog]; exact .refl s
    | some p =>
      have hoff : Stands [] s (runOff s) := .of_only (runOff_spec s).2.2.2.2 (by decide)
      have hover : ∀ u, Stands [] u (runOver u) := fun u =>
        .after (stands_raise _) (.after (stands_requestStatus _) (.after (stands_modClean _)
          (stands_modClean _)))
      rw [endRunning_eq result hjob hprog]
      exact .after (hover _) (.after (stands_overLines (fun i u => stands_releaseLine u _ i) _ _)
        (.after (stands_returnSlots _) (.after (stands_writeRunRecord _ _)
          (.after (stands_overLines (fun i u => stands_wasteLine u j i) _ _) hoff))))

theorem stands_endEarly : Stands [] s (endEarly s) := by
  unfold endEarly
  split
  · next j _ =>
    have hlines : Stands [] s (overLines withdrawOrRelease (linesOf j.lines) s) :=
      .of_only (overLines_only (fun i u => (withdrawOrRelease_spec i u).2.2) _ s) (by decide)
    have hended := Stands.after
      (stands_modClean fun c => { c with runState := .idle, job := none, age := 0 })
      (.after (stands_returnSlots _) (.after (stands_writeClean _ j .aborted none) hlines))
    exact .after (stands_raise _) (.ite (.after (stands_requestStatus _) hended) hended)
  · exact .refl s

theorem stands_abortRun : Stands [] s (abortRun s) := by
  unfold abortRun
  split
  · exact .refl s
  · exact stands_endEarly s
  · exact stands_endEarly s
  · exact stands_endRunning s _

theorem stands_takeNext (p : Progress) : Stands [] s (takeNext p s) := by
  unfold takeNext
  split
  · exact stands_enterStep s _ _
  · exact stands_endRunning s _

theorem stands_takeFaultNext (p : Progress) : Stands [] s (takeFaultNext p s) := by
  unfold takeFaultNext
  split
  · exact stands_enterStep s _ _
  · exact stands_endRunning s _

theorem stands_afterFlagChange : Stands [] s (afterFlagChange s) := by
  unfold afterFlagChange
  split
  · exact .ite (stands_takeNext s _) (.refl s)
  · exact .refl s

theorem stands_singleExpiry (p : Progress) : Stands [] s (singleExpiry p s) :=
  .ite (stands_takeNext s p) (stands_takeFaultNext s p)

theorem stands_dwellExpires (p : Progress) : Stands [] s (dwellExpires p s) := by
  unfold dwellExpires
  simp only
  split
  · exact .refl s
  · exact .ite (stands_singleExpiry s p) (.ite (stands_takeNext s p) (stands_modClean _))

theorem stands_limitExpires (p : Progress) : Stands [] s (limitExpires p s) := by
  unfold limitExpires
  simp only
  split
  · exact .refl s
  · split
    · exact stands_takeFaultNext s p
    · exact .ite (stands_singleExpiry s p) (.refl s)

theorem stands_stepEvent {f : Progress → State → State} (h : ∀ p, Stands [] s (f p s)) :
    Stands [] s (stepEvent f s) := by
  unfold stepEvent
  split
  · exact h _
  · exact .refl s

theorem stands_cleaningPulse (i : LineNo) (p : Progress) : Stands [] s (cleaningPulse i p s) := by
  have hcount : ∀ f g, Stands [] s (modClean f (modClean g s)) := fun _ _ =>
    .after (stands_modClean _) (stands_modClean _)
  exact .ite (.after (stands_afterFlagChange _) (hcount _ _)) (hcount _ _)

theorem stands_checkPrepared : Stands [] s (checkPrepared s) :=
  .ite (.after (stands_requestStatus _) (stands_modClean _)) (.refl s)

theorem stands_enterRunning : Stands [] s (enterRunning s) := by
  unfold enterRunning
  split
  · have hlines : ∀ is u, Stands [] u (overLines activate is u) := fun is u =>
      .of_only (overLines_only (fun i v => (activate_frame i v).2) is u) (by decide)
    exact .after (stands_enterStep _ _ _) (.after (stands_modClean _) (.after (stands_requestStatus _)
      (.after (hlines _ _) (stands_modClean _))))
  · exact .refl s

theorem stands_evaluateClaim : Stands [] s (evaluateClaim s) :=
  .ite (.ite (.after (stands_enterRunning _) (stands_modClean _)) (stands_modClean _)) (.refl s)

end cleaning

/-! ## The tower -/

section tower

variable (i : LineNo) (s : State)

theorem stands_pourPulse (p : PourCtx) : Stands [] s (pourPulse i p s) := by
  unfold pourPulse
  simp only
  split
  · split
    · exact .after (stands_setEmpty _ _) (.after (stands_endPour _ i _) (stands_setLine i _))
    · exact .after (stands_endPour _ i _) (stands_setLine i _)
    · exact stands_setLine i _
  · exact stands_setLine i _

theorem stands_creepPulse : Stands [] s (creepPulse i s) := by
  unfold creepPulse
  simp only
  split
  · split
    · exact .after (stands_setState _ i _) (.after (stands_setLock _ i _) (stands_setLine i _))
    · exact .after (stands_refuseEntry _ i _) (.after (stands_setLock _ i _) (stands_setLine i _))
    · exact stands_setLine i _
  · exact stands_setLine i _

theorem stands_takePulse : Stands [] s (takePulse i s) := by
  unfold takePulse
  simp only
  split
  · exact .refl s
  · split
    case h_1 | h_2 =>
      split
      · exact stands_pourPulse i s _
      · exact .refl s
    case h_3 => exact stands_stepEvent s (stands_cleaningPulse s i)
    case h_4 => exact stands_creepPulse i s

/-- A completion writes its record, may lock its line and may let the run go on to its claim (R22, R176). -/
theorem stands_complete (p : PourCtx) : Stands [] s (complete i p s) := by
  have hpours : ∀ (u : State) n, Stands [] u { u with pours := n } := fun _ _ => .of_eq rfl rfl rfl rfl rfl
  have hbook : Stands [] s (bookPour i p s) :=
    .after (hpours _ _) (.after (stands_setLine i _) (.after (stands_addOwn _ _ _) (stands_writeRecord s _)))
  have hsettle : ∀ u, Stands [] u (afterCompletion i p u) := by
    intro u
    have hmark : Stands [] u (u.setLine i { u.line i with cleanMark := false }) := stands_setLine i _
    have hlock := (stands_setLock _ i .foamOut).after hmark
    exact .ite (.after (stands_setState _ i _) (.ite hlock hmark))
      (.ite (.after (stands_checkPrepared _) (.after (stands_setState _ i _) hmark))
        (.ite (.after (stands_setState _ i _) hlock) (.after (stands_setState _ i _) hmark)))
  have hpresent : ∀ u, Stands [] u (presentRemembered i u) := by
    intro u
    unfold presentRemembered
    simp only
    split
    · exact .after (stands_request _ i _) (stands_setLine i _)
    · exact .refl u
  rw [complete_eq]
  exact .after (hpresent _) (.after (stands_serve _) (.after (hsettle _) hbook))

theorem stands_refuseFlash : Stands [] s (refuseFlash i s) :=
  .of_only (refuseFlash_spec i s).2.2 (by decide)

theorem stands_pressHandle : Stands [] s (pressHandle i s) := by
  unfold pressHandle
  split
  · exact .refl s
  · split
    case h_5 => exact stands_request s i .handle
    case h_1 | h_2 | h_3 | h_4 => exact stands_refuseFlash i s
    all_goals exact .refl s

theorem stands_releaseHandle : Stands [] s (releaseHandle i s) := by
  unfold releaseHandle
  split
  · exact .refl s
  · split
    · exact .ite (.after (stands_setState _ i _) (.of_only (removeStart_only i s) (by decide))) (.refl s)
    · exact .ite (stands_endPour s i _) (.refl s)
    · exact .refl s

theorem stands_pressKey (k : Key) : Stands [] s (pressKey i k s) := by
  unfold pressKey
  split
  case h_5 => exact stands_request s i _
  case h_6 => exact .ite (stands_setLine i _) (.refl s)
  case h_1 | h_2 | h_3 | h_4 => exact stands_refuseFlash i s
  all_goals exact .refl s

end tower

/-! ## The cellar link and cooling -/

section link

variable (s : State)

/-- A frame of own number sets MUTE (R118). -/
theorem stands_duplicateStation : Stands [] s (duplicateStation s) := by
  unfold duplicateStation
  have hflush : Stands [] s (modLink (fun k => { k with
      mute := true, statusReq := false, changes := [], current := none,
      drops := sat max16 (k.drops + k.changes.length) }) s) := stands_modLink fun _ => rfl
  exact .after (stands_raise _) (.ite (.refl s) (.ite hflush (.after (stands_raise _) hflush)))

theorem stands_handFrame (f : LinkFrame) : Stands [] s (handFrame f s) := by
  unfold handFrame
  split
  · exact stands_duplicateStation s
  · split
    · exact stands_takeChange s _
    · split
      · rw [applyStatus_eq]
        exact .after (stands_evaluateClaim _) (stands_statusTaken s _ _)
      · exact .refl s

theorem stands_discardFrame (c : RxCheck) : Stands [] s (discardFrame c s) :=
  stands_modLink fun h => by cases c <;> exact h

theorem stands_arriveFrame (f : LinkFrame) : Stands [] s (arriveFrame f s) :=
  .ite (.after (stands_handFrame _ f) (stands_modLink id)) (stands_discardFrame s _)

theorem stands_startAttempt : Stands [] s (startAttempt s) := by
  unfold startAttempt
  split
  · split
    · exact stands_modLink id
    · exact .refl s
  · exact .refl s

theorem stands_collide : Stands [] s (collide s) := by
  unfold collide
  split
  next t c _ _ =>
    have hover : Stands [] s (modLink (fun k => { release t (t.sent + 1) k with
      collisions := satInc max16 k.collisions }) s) := stands_modLink id
    have hdrop : ∀ u, Stands [] u (modLink (fun k => { leaveList c.kind k with
        current := none, drops := satInc max16 k.drops }) u) := fun u =>
      stands_modLink fun h => by rw [leaveList_eq]; exact h
    exact .ite (.after (stands_selectFrame _)
        (.ite (.after (stands_raise _) (.after (hdrop _) hover)) (.after (hdrop _) hover)))
      (.after (stands_modLink id) hover)
  next => exact .refl s

theorem stands_statusSuccess : Stands [] s (statusSuccess s) :=
  .ite (.after (stands_evaluateClaim _) (stands_modClean _)) (.refl s)

theorem stands_succeed : Stands [] s (succeed s) := by
  unfold succeed
  split
  next t c _ _ =>
    have hover : Stands [] s (modLink (fun k => { leaveList c.kind (release t t.chars.length k) with
      current := none }) s) := stands_modLink fun h => by rw [leaveList_eq]; exact h
    exact .after (stands_selectFrame _) (.ite (.after (stands_statusSuccess _) hover) hover)
  next => exact .refl s

theorem stands_readBack (t : TxFrame) (v : Byte) (err : Bool) : Stands [] s (readBack t v err s) :=
  .ite (stands_collide s) (.ite (stands_succeed s) (stands_modLink id))

theorem stands_takeChar (v : Byte) (err : Bool) : Stands [] s (takeChar v err s) := by
  unfold takeChar
  split
  · exact .refl s
  · exact .refl s
  · exact .ite (stands_discardFrame s _) (.ite (stands_modLink id) (stands_discardFrame s _))
  · split
    · exact stands_modLink id
    · exact stands_discardFrame s _
    · exact stands_arriveFrame s _
  · split
    · exact stands_readBack s _ v err
    · exact .refl s

theorem stands_cool (k : Cooling) : Stands [] s { s with cool := k } :=
  .of_only (cool_only s k) (by decide)

theorem stands_staleRegrant : Stands [] s (staleRegrant s) :=
  .ite (.after (stands_serve _) (stands_cool s _)) (stands_cool s _)

/-- A sample sets SENSOR-FAULT at most (R136). -/
theorem stands_takeCode (code : BitVec 12) : Stands [] s (takeCode code s) :=
  .ite (stands_cool s _) (.ite (stands_cool s _) (.after (stands_raise _) (stands_cool s _)))

theorem stands_sample (code : BitVec 12) : Stands [] s (sample code s) := by
  have hlamps : ∀ u, Stands [] u (relampAll u) := fun u => .of_only (relampAll_only u) (by decide)
  have hsampled : Stands [] s (sampled code s) :=
    .after (stands_cool _ _) (.after (stands_takeCode _ code) (stands_cool s _))
  have hlit := (hlamps _).after hsampled
  rw [sample_eq]
  exact .ite (.after (stands_serve _) hlit) hlit

end link

end Sys2Proof.Machine

/-! SUPPORT. Every command and event moves at most the parts that are its own, the reset apart, and the statement
(R39, R49, R65, R119, R190, R191). -/

namespace Sys2Proof.Machine

/-! ## The commands -/

section commands

variable (s : State)

/-- CONFIGURE acts while UNCONFIGURED, on the configuration and on station seconds (R39, R65, R191). -/
theorem stands_configureBody (img : List Byte) :
    Stands [.config, .seconds] s (configureBody img s).1 := by
  have haccept (hs : s.station = .unconfigured) : Stands [.config, .seconds] s (acceptImage img s) := by
    have hloaded : Stands [.config, .seconds] s { s with
        config := some (loadCfg img), station := .stopped, seconds := 0, secondFrom := some s.now } :=
      ⟨by simp, fun _ _ => id, fun _ => id, by simp, fun _ hr => by simp [hs] at hr⟩
    exact .after (stands_cool _ _).beside (.after (stands_cool _ _).beside
      (.after (stands_requestStatus _).beside (.after (stands_modLink id).beside hloaded)))
  unfold configureBody
  split
  · exact .refl s
  next hs =>
    split
    · exact .refl s
    · exact haccept (not_not.mp hs)

theorem stands_startBody : Stands [] s (startBody s).1 := by
  unfold startBody
  split
  · exact .refl s
  · have hup : Stands [] s { s with station := .running } :=
      ⟨fun _ => rfl, fun _ _ => id, fun _ => id, fun _ => rfl, fun _ _ => rfl⟩
    have hlines : ∀ u, Stands [] u (overLines startLine allLines u) := fun u =>
      .of_only (overLines_only (fun i v => (startLine_spec i v).2.2) _ u) (by decide)
    simp only [accept]
    exact .after (stands_requestStatus _) (.after (hlines _) hup)

/-- STOP leaves RUNNING (R191). -/
theorem stands_stopBody : Stands [.station] s (stopBody s).1 := by
  unfold stopBody
  split
  · exact .refl s
  · have hdown : Stands [.station] s { s with station := .stopped } :=
      ⟨fun _ => rfl, fun _ _ => id, fun _ => id, fun _ => rfl, by simp⟩
    have htower : ∀ u, Stands [] u (overLines (fun i => endIfPouring i .stopped) allLines
        (overLines (fun i => refuseEntry i .off) (s.starts.map StartEntry.line) u)) := fun u =>
      .after (stands_overLines (fun i v => stands_endIfPouring v i .stopped) _ _)
        (stands_overLines (fun i v => stands_refuseEntry v i .off) _ _)
    have hlines : ∀ u, Stands [] u (overLines stopLine allLines u) := fun u =>
      .of_only (overLines_only (fun i v => (stopLine_spec i v).2.2) _ u) (by decide)
    have hleave : leaveRunning s = overLines stopLine allLines (abortRun (closeTower s)) := rfl
    simp only [accept, hleave]
    exact .after (Stands.after (stands_requestStatus _) (.after (hlines _) (.after (stands_abortRun _)
      (htower _)))).beside hdown

/-- A command that reads (R30, R97, R120, R132). -/
theorem stands_readings (line source station : Byte) : Stands [] s (readLineBody line s).1 ∧
    Stands [] s (readSourceBody source s).1 ∧ Stands [] s (readPeerBody station s).1 ∧
    Stands [] s (readLinkBody s).1 := by
  unfold readLineBody readSourceBody readPeerBody readLinkBody
  refine ⟨?_, ?_, ?_, ?_⟩
  · split
    · exact .refl s
    · split <;> exact .refl s
  · split
    · exact .refl s
    · split <;> exact .refl s
  · split
    · exact .refl s
    · split
      · exact .refl s
      · split <;> exact .refl s
  · split
    · exact .refl s
    · exact ⟨fun _ => rfl, fun _ _ => id, fun _ => id, fun _ => rfl, fun _ => id⟩

theorem stands_takeRecordBody : Stands [] s (takeRecordBody s).1 := by
  unfold takeRecordBody
  split
  · exact .refl s
  · split
    · exact .refl s
    · exact .after (stands_serve _) (.of_only (taken_only s _) (by decide))

theorem stands_orderBody (line : Byte) (tag volume : BitVec 16) :
    Stands [] s (orderBody line tag volume s).1 := by
  unfold orderBody
  split
  · exact .refl s
  · split
    · exact .refl s
    · split
      · exact .refl s
      · split
        · exact .refl s
        · exact stands_setLine _ _

theorem stands_cancelBody (line : Byte) (tag : BitVec 16) : Stands [] s (cancelBody line tag s).1 := by
  unfold cancelBody
  split
  · exact .refl s
  · split
    · exact .refl s
    · split
      · exact stands_setLine _ _
      · split
        · split
          · exact stands_endPour s _ _
          · exact .refl s
        · exact .refl s

theorem stands_pourStopBody (line : Byte) : Stands [] s (pourStopBody line s).1 := by
  unfold pourStopBody
  split
  · exact .refl s
  · split
    · exact .refl s
    · split
      · exact stands_endPour s _ _
      · exact stands_refuseEntry s _ _
      · exact stands_setLine _ _
      · exact .refl s

theorem stands_unlockBody (line : Byte) : Stands [] s (unlockBody line s).1 := by
  unfold unlockBody
  split
  · exact .refl s
  · split
    · exact .refl s
    · split
      · exact .refl s
      · exact .of_only (clearLock_spec _ s).2.2 (by decide)

/-- CALIBRATE sets a working gain of the configuration (R49). -/
theorem stands_calibrateBody (line : Byte) (va : BitVec 32) :
    Stands [.config] s (calibrateBody line va s).1 := by
  have hgain : ∀ i g, Stands [.config] s (setGain i g s) := fun _ _ =>
    ⟨by simp, fun _ _ => id, fun _ => id, fun _ => rfl, fun _ => id⟩
  unfold calibrateBody
  split
  · exact .refl s
  · split
    · exact .refl s
    · split
      · exact .refl s
      · split
        · exact .refl s
        · simp only
          split
          · exact .refl s
          · exact hgain _ _

theorem stands_sourceChangeBody (source : Byte) (full : BitVec 32) :
    Stands [] s (sourceChangeBody source full s).1 := by
  unfold sourceChangeBody
  split
  · exact .refl s
  · split
    · exact .refl s
    · split
      · exact .refl s
      · split
        · exact .refl s
        · exact .after (stands_selectFrame _) (.after (stands_modLink id) (stands_newGeneration _ s _ _ _))

/-- CLEAR-MUTE clears MUTE and nothing else that is watched (R119). -/
theorem stands_clearMuteBody : Stands [.link] s (clearMuteBody s).1 := by
  unfold clearMuteBody
  split
  · exact .refl s
  · exact .after (stands_requestStatus _).beside (.of_only (modLink_only _ s) (by decide))

theorem stands_cleanStartBody (entry lines : Byte) : Stands [] s (cleanStartBody entry lines s).1 := by
  have haccept : Stands [] s (acceptRun entry.toNat lines s) := by
    have hreserved : ∀ j, Stands [] s { s with journal := j } := fun _ => .of_eq rfl rfl rfl rfl rfl
    have hlines : ∀ u, Stands [] u (overLines reserveLine (linesOf lines) u) := fun u =>
      .of_only (overLines_only (fun i v => (reserveLine_frame i v).2) _ u) (by decide)
    exact .after (stands_checkPrepared _) (.after (stands_modClean _) (.after (hlines _)
      (.after (stands_modClean _) (hreserved _))))
  unfold cleanStartBody
  split
  · exact .refl s
  · split
    · exact .refl s
    · split
      · exact .refl s
      · split
        · exact .refl s
        · split
          · exact .refl s
          · exact haccept

theorem stands_cleanAbortBody : Stands [] s (cleanAbortBody s).1 := by
  unfold cleanAbortBody
  split
  · exact .refl s
  · exact stands_abortRun s

end commands

/-! ## Every command and event -/

/-- The commands and events that move a watched part, with the part; the reset moves every one. -/
inductive Mover : Instr → Part → Prop where
  | loads (img : List Byte) : Mover (.configure img) .config
  | calibrates (line : Byte) (va : BitVec 32) : Mover (.calibrate line va) .config
  | clearsFlags : Mover .readAttention .attn
  | clearsMute : Mover .clearMute .link
  | zeroesSeconds (img : List Byte) : Mover (.configure img) .seconds
  | ticks : Mover .stationSecondsTick .seconds
  | stops : Mover .stop .station

/-- Unless the state is that after a reset, but for the port and RSTN, only the named parts have moved. -/
def MovesOnly (m : List Part) (s t : State) : Prop :=
  t ≠ { afterReset s with port := t.port, rstnLow := t.rstnLow } → Stands m s t

/-- Only the watched parts that a command or event moves by its rules have moved. -/
def MovedBy (c : Instr) (s t : State) : Prop := ∃ m, MovesOnly m s t ∧ ∀ p ∈ m, Mover c p

section events

variable {m : List Part} {s t u : State}

theorem Stands.movesOnly (h : Stands m s t) : MovesOnly m s t := fun _ => h

/-- The reset may move everything (R193). -/
theorem movesOnly_reset (p : Port) (low : Bool) :
    MovesOnly m s { afterReset s with port := p, rstnLow := low } := fun h => absurd rfl h

theorem MovesOnly.ite {c : Prop} [Decidable c] (h : MovesOnly m s t) (h' : MovesOnly m s u) :
    MovesOnly m s (if c then t else u) := by
  split
  · exact h
  · exact h'

theorem movesOnly_powered {f : State → State} (h : MovesOnly m s (f s)) : MovesOnly m s (powered s f) :=
  .ite (Stands.refl s).movesOnly h

theorem stands_port (s : State) (p : Port) : Stands m s { s with port := p } := .of_eq rfl rfl rfl rfl rfl

/-- A command or event that moves no watched part. -/
theorem MovedBy.of_quiet {c : Instr} (h : MovesOnly [] s t) : MovedBy c s t := ⟨[], h, by simp⟩

/-- A command period marks an overrun, resets, or executes its command (R188, R189, R193). -/
theorem movesOnly_command {body : State → State × Answer} (h : ∀ s, Stands m s (body s).1) :
    MovesOnly m s (command body s) := by
  exact movesOnly_powered (.ite (stands_port s _).movesOnly (.ite (movesOnly_reset _ _)
    (((stands_port s _).trans (h (beginCommand s))).trans (stands_port _ _)).movesOnly))

theorem movesOnly_readOut (n : Nat) : MovesOnly m s (readOut n s) := by
  unfold readOut
  simp only
  split
  · exact movesOnly_reset _ _
  · exact ((stands_port s _).trans (stands_port _ _)).movesOnly

/-- An event whose outcome is a next state moves what its operation moves. -/
theorem movesOnly_next (h : (Host.Outcome.next u : Host.Outcome State Fault Refusal) = .next t)
    (hu : MovesOnly m s u) : MovesOnly m s t :=
  Host.Outcome.next.inj h ▸ hu

/-- An event that resets nothing. -/
theorem movesOnly_event {f : State → State}
    (h : (Host.Outcome.next (powered s f) : Host.Outcome State Fault Refusal) = .next t)
    (hf : Stands m s (f s)) : MovesOnly m s t :=
  movesOnly_next h (movesOnly_powered hf.movesOnly)

theorem movesOnly_body {body : State → State × Answer}
    (h : (Host.Outcome.next (command body s) : Host.Outcome State Fault Refusal) = .next t)
    (hb : ∀ s, Stands m s (body s).1) : MovesOnly m s t :=
  movesOnly_next h (movesOnly_command hb)

theorem quiet_event {c : Instr} {f : State → State}
    (h : (Host.Outcome.next (powered s f) : Host.Outcome State Fault Refusal) = .next t)
    (hf : Stands [] s (f s)) : MovedBy c s t := .of_quiet (movesOnly_event h hf)

theorem quiet_body {c : Instr} {body : State → State × Answer}
    (h : (Host.Outcome.next (command body s) : Host.Outcome State Fault Refusal) = .next t)
    (hb : ∀ s, Stands [] s (body s).1) : MovedBy c s t := .of_quiet (movesOnly_body h hb)

theorem movesOnly_execPeerExpiry (station : Byte) (h : execPeerExpiry station s = .next t) :
    MovesOnly [] s t := by
  refine movesOnly_event h ?_
  split
  · exact .refl s
  · split
    · exact .refl s
    · exact .ite (.after (stands_evaluateClaim _) (.after (stands_staleRegrant _) (stands_setPeer _ _)))
        (.refl s)

theorem movesOnly_execPourCompletion (i : LineNo) (h : execPourCompletion i s = .next t) :
    MovesOnly [] s t := by
  refine movesOnly_event h ?_
  split
  · exact stands_complete i s _
  · exact .refl s

theorem movesOnly_execValveHoldDrive (i : LineNo) (h : execValveHoldDrive i s = .next t) :
    MovesOnly [] s t := by
  refine movesOnly_event h ?_
  split
  · exact stands_setLine i _
  · exact .refl s

theorem movesOnly_execIdleGapExpiry (h : execIdleGapExpiry s = .next t) : MovesOnly [] s t := by
  refine movesOnly_event h ?_
  split
  · exact stands_modLink id
  · exact stands_discardFrame s _
  · exact .refl s

theorem movesOnly_execResponseReady (h : execResponseReady s = .next t) : MovesOnly [] s t := by
  refine movesOnly_event h ?_
  split
  · exact .of_eq rfl rfl rfl rfl rfl
  · exact .refl s

/-- Every command and event moves the watched parts that are its own, the reset apart. -/
theorem movedBy_exec (c : Instr) (h : exec c s = .next t) : MovedBy c s t := by
  cases c with
  | configure image =>
    exact ⟨[.config, .seconds], movesOnly_body h fun s => stands_configureBody s image,
      by simpa using ⟨.loads image, .zeroesSeconds image⟩⟩
  | start => exact quiet_body h stands_startBody
  | stop => exact ⟨[.station], movesOnly_body h stands_stopBody, by simpa using .stops⟩
  | reset => exact quiet_body h fun _ => .of_eq rfl rfl rfl rfl rfl
  | readStatus => exact quiet_body h fun s => .refl s
  | readLine line => exact quiet_body h fun s => (stands_readings s line 0 0).1
  | readSource source => exact quiet_body h fun s => (stands_readings s 0 source 0).2.1
  | readPeer station => exact quiet_body h fun s => (stands_readings s 0 0 station).2.2.1
  | readLink => exact quiet_body h fun s => (stands_readings s 0 0 0).2.2.2
  | readAttention =>
    exact ⟨[.attn], movesOnly_body h fun _ =>
      ⟨fun _ => rfl, by simp, fun _ => id, fun _ => rfl, fun _ => id⟩, by simpa using .clearsFlags⟩
  | takeRecord => exact quiet_body h stands_takeRecordBody
  | order line tag volume => exact quiet_body h fun s => stands_orderBody s line tag volume
  | cancel line tag => exact quiet_body h fun s => stands_cancelBody s line tag
  | pourStop line => exact quiet_body h fun s => stands_pourStopBody s line
  | unlock line => exact quiet_body h fun s => stands_unlockBody s line
  | calibrate line va =>
    exact ⟨[.config], movesOnly_body h fun s => stands_calibrateBody s line va,
      by simpa using .calibrates line va⟩
  | sourceChange source full => exact quiet_body h fun s => stands_sourceChangeBody s source full
  | cleanStart entry lines => exact quiet_body h fun s => stands_cleanStartBody s entry lines
  | cleanAbort => exact quiet_body h stands_cleanAbortBody
  | clearMute => exact ⟨[.link], movesOnly_body h stands_clearMuteBody, by simpa using .clearsMute⟩
  | commandNotExecuted => exact quiet_body h fun s => .refl s
  | readPeriod bytes =>
    exact .of_quiet (movesOnly_next h
      (movesOnly_powered (.ite (Stands.refl s).movesOnly (movesOnly_readOut bytes))))
  | responseReady => exact .of_quiet (movesOnly_execResponseReady h)
  | resetResponseTimeout =>
    exact .of_quiet (movesOnly_next h
      (movesOnly_powered (.ite (movesOnly_reset _ _) (Stands.refl s).movesOnly)))
  | rstnAssert => exact .of_quiet (movesOnly_next h (movesOnly_reset _ _))
  | rstnRelease => exact .of_quiet (movesOnly_next h (movesOnly_reset _ _))
  | portReadyAfterReset => exact quiet_event h (.ite (.of_eq rfl rfl rfl rfl rfl) (.refl s))
  | handlePress i =>
    exact quiet_event h
      (.ite (.after (stands_pressHandle i _) (stands_setLine i _)) (stands_setLine i _))
  | handleRelease i =>
    exact quiet_event h
      (.ite (.after (stands_releaseHandle i _) (stands_setLine i _)) (stands_setLine i _))
  | keyPress i k =>
    exact quiet_event h
      (.ite (.after (stands_pressKey i _ k) (stands_setLine i _)) (stands_setLine i _))
  | keyEntryExpiry i => exact quiet_event h (.ite (stands_refuseEntry s i _) (.refl s))
  | refuseFlashEnd i =>
    exact quiet_event h
      (.ite (.after (.of_only (relamp_only i _) (by decide)) (stands_setLine i _)) (.refl s))
  | valveHoldDrive i => exact .of_quiet (movesOnly_execValveHoldDrive i h)
  | meterPulse i => exact quiet_event h (.after (stands_takePulse i _) (stands_setLine i _))
  | noFlowExpiry i => exact quiet_event h (stands_endIfPouring s i _)
  | pourTimerExpiry i => exact quiet_event h (stands_endIfPouring s i _)
  | pourCompletion i => exact .of_quiet (movesOnly_execPourCompletion i h)
  | stationSecondsTick =>
    exact ⟨[.seconds], movesOnly_event h (.ite (.refl s)
      ⟨fun _ => rfl, fun _ _ => id, fun _ => id, by simp, fun _ => id⟩), by simpa using .ticks⟩
  | validFrameArrival frame => exact quiet_event h (.ite (stands_arriveFrame s frame) (.refl s))
  | frameDiscarded check => exact quiet_event h (.ite (stands_discardFrame s check) (.refl s))
  | idleGapExpiry => exact .of_quiet (movesOnly_execIdleGapExpiry h)
  | announcementTimerExpiry =>
    exact quiet_event h (.ite (.refl s) (.after (stands_requestStatus _) (stands_modLink id)))
  | accessWaitExpiry => exact quiet_event h (.ite (.refl s) (stands_startAttempt s))
  | collision => exact quiet_event h (stands_collide s)
  | transmitSuccess => exact quiet_event h (stands_succeed s)
  | peerExpiry station => exact .of_quiet (movesOnly_execPeerExpiry station h)
  | sensorSample code => exact quiet_event h (.ite (.refl s) (stands_sample s code))
  | glycolFrameStart => exact quiet_event h (.ite (.refl s) (stands_cool s _))
  | glycolOnTimeEnd => exact quiet_event h (stands_cool s _)
  | conditionPinChange pin level =>
    exact quiet_event h (.ite (.refl s) (.after (stands_afterFlagChange _) (stands_modClean _)))
  | flowTimeout =>
    exact quiet_event h (stands_stepEvent s fun _ =>
      .ite (.after (stands_afterFlagChange _) (stands_modClean _)) (.refl s))
  | dwellExpiry => exact quiet_event h (stands_stepEvent s (stands_dwellExpires s))
  | limitExpiry => exact quiet_event h (stands_stepEvent s (stands_limitExpires s))
  | runLimitExpiry => exact quiet_event h (stands_stepEvent s fun _ => stands_endRunning s .failed)
  | characterStart => exact quiet_event h (.ite (.refl s) (stands_modLink id))
  | characterTaken value err => exact quiet_event h (stands_takeChar s value err)
  | lampBlinkPhase i => exact quiet_event h (.ite (stands_setLine i _) (.refl s))

end events

/-- Settles O60: each command and event moves at most the watched parts that are its own, the reset apart. -/
theorem onlyTheseChange : Obligations.OnlyTheseChange := by
  intro c s t h hreset
  obtain ⟨m, hmoves, hm⟩ := movedBy_exec c h
  have hstands := hmoves hreset
  refine ⟨fun hc hg => hstands.config fun hp => ?_, fun hc => hstands.attn fun hp => ?_,
    fun hc => hstands.mute fun hp => ?_, fun hc ht => hstands.seconds fun hp => ?_,
    fun hc => hstands.running fun hp => ?_⟩
  · cases hm _ hp with
    | loads img => exact hc img rfl
    | calibrates line va => exact hg line va rfl
  · cases hm _ hp with
    | clearsFlags => exact hc rfl
  · cases hm _ hp with
    | clearsMute => exact hc rfl
  · cases hm _ hp with
    | zeroesSeconds img => exact hc img rfl
    | ticks => exact ht rfl
  · cases hm _ hp with
    | stops => exact hc rfl

end Sys2Proof.Machine

/-! SUPPORT. The select periods of the terminal port and their statements (R188, R189, R195). -/

namespace Sys2Proof

/-! ## A command period (R189) -/

theorem decodePeriod_short {code l1 l0 : Byte} {payload : List Byte}
    (h : payload.length < (be16 l1 l0).toNat) :
    decodePeriod (code :: l1 :: l0 :: payload) = .commandNotExecuted := by
  simp only [decodePeriod, h, if_true]

/-- The payload is as long as the length says; bytes beyond it are ignored. -/
theorem decodePeriod_full {code l1 l0 : Byte} {payload : List Byte} (extra : List Byte)
    (h : payload.length = (be16 l1 l0).toNat) :
    decodePeriod (code :: l1 :: l0 :: (payload ++ extra)) = decodeCommand code.toNat payload := by
  have hlong : ¬ (payload ++ extra).length < payload.length := by simp
  simp only [decodePeriod, ← h, hlong, if_false, List.take_left]

/-- A first byte other than 00h makes a command period (R188). -/
theorem decodeSelect_command {code : Byte} (rest : List Byte) (h : code ≠ 0) :
    decodeSelect (code :: rest) = some (decodePeriod (code :: rest)) := by
  simp only [decodeSelect, h, if_false]

theorem decodeSelect_zeros (n : Nat) :
    decodeSelect (List.replicate (n + 1) 0) = some (.readPeriod (n + 1)) := by
  simp [decodeSelect, List.replicate_succ]

/-- The length field of a command period says the length of its payload (R189). -/
theorem decodePeriod_sent (code : Byte) {payload : List Byte} (h : payload.length < 65536) :
    decodePeriod (code :: (bytes16 (BitVec.ofNat 16 payload.length) ++ payload)) =
      decodeCommand code.toNat payload := by
  have hlength : payload.length = (BitVec.ofNat 16 payload.length).toNat := by
    rw [BitVec.toNat_ofNat, Nat.mod_eq_of_lt h]
  have hfull := decodePeriod_full (code := code) (payload := payload) [] (by
    rw [be16_bytes16 (BitVec.ofNat 16 payload.length)]
    exact hlength)
  rwa [List.append_nil] at hfull

/-! ## Codes and payloads (R195) -/

/-- The code and the payload of a command are those of that command; the code is not 00h, and the payload
fits the length field. -/
theorem decodeCommand_encode {i : Instr} {code : Byte} {payload : List Byte} (hwf : i.wf = true)
    (h : encodeCommand i = some (code, payload)) :
    code ≠ 0 ∧ payload.length < 65536 ∧ decodeCommand code.toNat payload = i := by
  cases i with
  | configure image =>
    obtain ⟨rfl, rfl⟩ := Prod.mk.inj (Option.some.inj h)
    exact ⟨by decide, by simpa [Instr.wf] using hwf, rfl⟩
  | order line tag volume =>
    obtain ⟨rfl, rfl⟩ := Prod.mk.inj (Option.some.inj h)
    exact ⟨by decide, by simp [bytes16],
      congrArg₂ (Instr.order line) (be16_bytes16 tag) (be16_bytes16 volume)⟩
  | cancel line tag =>
    obtain ⟨rfl, rfl⟩ := Prod.mk.inj (Option.some.inj h)
    exact ⟨by decide, by simp [bytes16], congrArg (Instr.cancel line) (be16_bytes16 tag)⟩
  | calibrate line va =>
    obtain ⟨rfl, rfl⟩ := Prod.mk.inj (Option.some.inj h)
    exact ⟨by decide, by simp [bytes32], congrArg (Instr.calibrate line) (be32_bytes32 va)⟩
  | sourceChange source full =>
    obtain ⟨rfl, rfl⟩ := Prod.mk.inj (Option.some.inj h)
    exact ⟨by decide, by simp [bytes32], congrArg (Instr.sourceChange source) (be32_bytes32 full)⟩
  | start | stop | reset | readStatus | readLink | readAttention | takeRecord | cleanAbort | clearMute
  | readLine | readSource | readPeer | pourStop | unlock | cleanStart =>
    obtain ⟨rfl, rfl⟩ := Prod.mk.inj (Option.some.inj h)
    exact ⟨by decide, by simp, rfl⟩
  | _ => exact nomatch h

/-- Settles O8: the length field gives the payload back, and the payload the fields of the command. -/
theorem selectRoundTrip : Obligations.SelectRoundTrip := by
  intro i bytes hwf h
  have hcommand : ∀ {c : Option (Byte × List Byte)}, encodeCommand i = c →
      c.map (fun c => c.1 :: (bytes16 (BitVec.ofNat 16 c.2.length) ++ c.2)) = some bytes →
      decodeSelect bytes = some i := by
    intro c hc hb
    obtain ⟨⟨code, payload⟩, rfl, rfl⟩ := Option.map_eq_some_iff.mp hb
    obtain ⟨hcode, hlength, hdecode⟩ := decodeCommand_encode hwf hc
    rw [decodeSelect_command _ hcode, decodePeriod_sent _ hlength, hdecode]
  cases i with
  | readPeriod n =>
    obtain ⟨m, rfl⟩ : ∃ m, n = m + 1 := ⟨n - 1, by simp [Instr.wf] at hwf; omega⟩
    obtain rfl := Option.some.inj h
    exact decodeSelect_zeros m
  | _ => exact hcommand rfl h

/-! ## How a command period is judged (R189, R195) -/

/-- The command codes of R195. -/
def commandCodes : List Nat :=
  [0x10, 0x11, 0x12, 0x13, 0x20, 0x21, 0x22, 0x23, 0x24, 0x25, 0x30, 0x40, 0x41, 0x42, 0x43, 0x44, 0x50,
    0x60, 0x61, 0x70]

/-- The codes of R195 with their payload lengths, CONFIGURE apart, which takes every length. -/
def payloadLengths : List (Nat × Nat) :=
  [(0x11, 0), (0x12, 0), (0x13, 0), (0x20, 0), (0x21, 1), (0x22, 1), (0x23, 1), (0x24, 0), (0x25, 0),
    (0x30, 0), (0x40, 5), (0x41, 3), (0x42, 1), (0x43, 1), (0x44, 5), (0x50, 5), (0x60, 2), (0x61, 0),
    (0x70, 0)]

section judged

variable {code : Nat} {payload : List Byte}

/-- The commands without a payload (R195). -/
theorem judged_empty (h : code ∈ [0x11, 0x12, 0x13, 0x20, 0x24, 0x25, 0x30, 0x61, 0x70]) :
    decodeCommand code payload = .commandNotExecuted ↔ payload.length ≠ 0 := by
  rcases payload with _ | ⟨a, rest⟩
  · fin_cases h <;> exact iff_of_false nofun (by simp)
  · fin_cases h <;> exact iff_of_true rfl (by simp)

/-- The commands with a payload of one byte. -/
theorem judged_one (h : code ∈ [0x21, 0x22, 0x23, 0x42, 0x43]) :
    decodeCommand code payload = .commandNotExecuted ↔ payload.length ≠ 1 := by
  rcases payload with _ | ⟨a, _ | ⟨b, rest⟩⟩
  · fin_cases h <;> exact iff_of_true rfl (by simp)
  · fin_cases h <;> exact iff_of_false nofun (by simp)
  · fin_cases h <;> exact iff_of_true rfl (by simp)

/-- CLEAN-START has a payload of two bytes. -/
theorem judged_two :
    decodeCommand 0x60 payload = .commandNotExecuted ↔ payload.length ≠ 2 := by
  rcases payload with _ | ⟨a, _ | ⟨b, _ | ⟨c, rest⟩⟩⟩
  · exact iff_of_true rfl (by simp)
  · exact iff_of_true rfl (by simp)
  · exact iff_of_false nofun (by simp)
  · exact iff_of_true rfl (by simp)

/-- CANCEL has a payload of three bytes. -/
theorem judged_three :
    decodeCommand 0x41 payload = .commandNotExecuted ↔ payload.length ≠ 3 := by
  rcases payload with _ | ⟨a, _ | ⟨b, _ | ⟨c, _ | ⟨d, rest⟩⟩⟩⟩
  case cons.cons.cons.nil => exact iff_of_false nofun (by simp)
  all_goals exact iff_of_true rfl (by simp)

/-- The commands with a payload of five bytes. -/
theorem judged_five (h : code ∈ [0x40, 0x44, 0x50]) :
    decodeCommand code payload = .commandNotExecuted ↔ payload.length ≠ 5 := by
  rcases payload with _ | ⟨a, _ | ⟨b, _ | ⟨c, _ | ⟨d, _ | ⟨e, _ | ⟨f, rest⟩⟩⟩⟩⟩⟩
  case cons.cons.cons.cons.cons.nil => fin_cases h <;> exact iff_of_false nofun (by simp)
  all_goals fin_cases h <;> exact iff_of_true rfl (by simp)

/-- A code that is not listed: one between the codes of R195, or above them. -/
theorem judged_unlisted (h : code ∉ commandCodes) : decodeCommand code payload = .commandNotExecuted := by
  rcases Nat.lt_or_ge code 113 with hlow | habove
  · have hgap : code ∈ (List.range 113).filter (· ∉ commandCodes) :=
      List.mem_filter.mpr ⟨List.mem_range.mpr hlow, decide_eq_true h⟩
    fin_cases hgap <;> rfl
  · obtain ⟨n, rfl⟩ := Nat.exists_eq_add_of_le' habove
    rfl

/-- A listed code, with its payload length (R195). -/
theorem judged_listed {len : Nat} (h : (code, len) ∈ payloadLengths) :
    decodeCommand code payload = .commandNotExecuted ↔ payload.length ≠ len := by
  have hlength : ∀ p ∈ payloadLengths,
      (p.1 ∈ [0x11, 0x12, 0x13, 0x20, 0x24, 0x25, 0x30, 0x61, 0x70] ∧ p.2 = 0) ∨
      (p.1 ∈ [0x21, 0x22, 0x23, 0x42, 0x43] ∧ p.2 = 1) ∨ (p.1 = 0x60 ∧ p.2 = 2) ∨
      (p.1 = 0x41 ∧ p.2 = 3) ∨ (p.1 ∈ [0x40, 0x44, 0x50] ∧ p.2 = 5) := by decide
  obtain ⟨hc, rfl⟩ | ⟨hc, rfl⟩ | ⟨rfl, rfl⟩ | ⟨rfl, rfl⟩ | ⟨hc, rfl⟩ := hlength _ h
  · exact judged_empty hc
  · exact judged_one hc
  · exact judged_two
  · exact judged_three
  · exact judged_five hc

end judged

/-- Settles O10: the length field is judged first, then the code with the length of its payload. -/
theorem selectPeriodsJudged : Obligations.SelectPeriodsJudged := by
  refine ⟨fun code l1 l0 payload extra hcode => ⟨?_, ?_, fun hshort => ?_, fun hfull => ?_⟩,
    fun _ _ _ => judged_listed, fun _ _ => judged_unlisted, rfl, rfl⟩
  · exact decodeSelect_command [] hcode
  · exact decodeSelect_command [l1] hcode
  · rw [decodeSelect_command _ hcode, decodePeriod_short hshort]
  · rw [decodeSelect_command _ hcode, decodePeriod_full extra hfull]

end Sys2Proof

/-! SUPPORT. The items of the configuration image, its checks and the index that they report (R192, R198). -/

namespace Sys2Proof.Machine

/-! ## Items at their offsets (R198) -/

section items

variable (img : List Byte) (o : Nat)

theorem at8_le : at8 img o ≤ 255 := Nat.le_of_lt_succ (img.getD o 0).isLt

theorem u8_eq : u8 img o = at8 img o := by simp only [u8, at8, imgByte]

/-- Two bytes as a number, high byte first. -/
theorem be16_toNat (hi lo : Byte) : (be16 hi lo).toNat = 256 * hi.toNat + lo.toNat := by
  rw [be16, BitVec.toNat_append, ← Nat.shiftLeft_add_eq_or_of_lt lo.isLt, Nat.shiftLeft_eq]
  omega

theorem be32_toNat (b3 b2 b1 b0 : Byte) : (be32 b3 b2 b1 b0).toNat =
    65536 * (256 * b3.toNat + b2.toNat) + (256 * b1.toNat + b0.toNat) := by
  rw [be32, BitVec.toNat_append, ← Nat.shiftLeft_add_eq_or_of_lt b0.isLt, Nat.shiftLeft_eq,
    BitVec.toNat_append, ← Nat.shiftLeft_add_eq_or_of_lt b1.isLt, Nat.shiftLeft_eq, BitVec.toNat_append,
    ← Nat.shiftLeft_add_eq_or_of_lt b2.isLt, Nat.shiftLeft_eq]
  omega

theorem u16_eq : u16 img o = at16 img o := be16_toNat _ _

theorem u32_eq : u32 img o = 65536 * at16 img o + at16 img (o + 2) := be32_toNat _ _ _ _

theorem s16_eq : s16 img o = at16s img o := by
  have hu : (w16 img o).toNat = at16 img o := u16_eq img o
  rw [s16, BitVec.toInt_eq_toNat_cond, hu, at16s]
  split <;> split <;> omega

theorem at16_le : at16 img o ≤ 65535 := u16_eq img o ▸ Nat.le_of_lt_succ (w16 img o).isLt

theorem at16s_range : -32768 ≤ at16s img o ∧ at16s img o ≤ 32767 := by
  have h := at16_le img o
  unfold at16s
  split <;> omega

end items

/-! ## The checks, item by item (R198) -/

section checks

variable (img : List Byte)

/-- The items of the station part, of the lines below the line count and of the steps below the step count,
each with the check that the model makes. -/
theorem itemFails_iff (k : Nat) : ItemFails img k ↔ (k, false) ∈ stationChecks img ∨
    (∃ n : LineNo, n.val < at8 img 1 ∧ (k, false) ∈ lineChecks img n) ∨
    ∃ j : Fin 24, j.val < at8 img 24 ∧ (k, false) ∈ stepChecks img (at8 img 24) j := by
  have hbits : ∀ n : Nat, (n < 128 ↔ n ≤ 127) ∧ (n < 32 ↔ n ≤ 31) := fun n => by omega
  unfold ItemFails
  refine or_congr ?_ (or_congr (exists_congr fun n => and_congr_right fun _ => ?_)
    (exists_congr fun j => and_congr_right fun _ => ?_))
  · simp [stationChecks, inRange, inRangeInt, u8_eq, u16_eq, s16_eq]
  · simp [lineChecks, lineOff, inRange, inRangeInt, u8_eq, u16_eq, s16_eq, at8_le]
  · simp [stepChecks, stepOff, inRange, u8_eq, u16_eq, hbits]

/-- The checks that the model makes, with the step targets judged by at most 24 steps. -/
theorem mem_imageChecks {c : Nat × Bool} : c ∈ imageChecks img ↔ c ∈ stationChecks img ∨
    (∃ n, n < min (at8 img 1) 8 ∧ c ∈ lineChecks img n) ∨
    ∃ j, j < min (at8 img 24) 24 ∧ c ∈ stepChecks img (min (at8 img 24) 24) j := by
  simp only [imageChecks, List.mem_append, List.mem_flatMap, List.mem_range, u8_eq, or_assoc]

/-- The fewer steps are counted, the fewer step targets pass. -/
theorem stepChecks_fewer {few many : Nat} (h : few ≤ many) {j k : Nat}
    (hk : (k, false) ∈ stepChecks img many j) : (k, false) ∈ stepChecks img few j := by
  have htarget : ∀ n : Nat, false = (decide (n < many) || n == 255) →
      false = (decide (n < few) || n == 255) := by
    simp
    omega
  simp only [stepChecks, List.mem_cons, Prod.mk.injEq, List.not_mem_nil, or_false] at hk ⊢
  exact hk.imp_right <| .imp_right <| .imp_right <| .imp_right <| .imp_right <| .imp_right <|
    .imp (.imp_right (htarget _)) (.imp_right (htarget _))

/-! ## Ascending item index (R192) -/

/-- The indices of a list of checks ascend. -/
def Ascending (cs : List (Nat × Bool)) : Prop := cs.Pairwise fun c d => c.1 < d.1

/-- The item indices of the station part are below 22, those of line n stand from 32 + 16n on, those of step
j from 192 + 16j on (R198). -/
theorem checks_index (count n : Nat) {c : Nat × Bool} : (c ∈ stationChecks img → c.1 < 22) ∧
    (c ∈ lineChecks img n → 32 + 16 * n < c.1 ∧ c.1 < 48 + 16 * n) ∧
    (c ∈ stepChecks img count n → 192 + 16 * n < c.1 ∧ c.1 < 208 + 16 * n) := by
  refine ⟨fun h => ?_, fun h => ?_, fun h => ?_⟩ <;> have hindex := List.mem_map_of_mem (f := Prod.fst) h
  · simp only [stationChecks, List.map_cons, List.map_nil, List.mem_cons, List.not_mem_nil, or_false] at hindex
    omega
  · simp only [lineChecks, List.map_cons, List.map_nil, List.mem_cons, List.not_mem_nil, or_false] at hindex
    omega
  · simp only [stepChecks, List.map_cons, List.map_nil, List.mem_cons, List.not_mem_nil, or_false] at hindex
    omega

theorem ascending_parts (count n : Nat) : Ascending (stationChecks img) ∧ Ascending (lineChecks img n) ∧
    Ascending (stepChecks img count n) := by
  simp [Ascending, stationChecks, lineChecks, stepChecks]

/-- Parts that ascend, each above the one before, ascend taken together. -/
theorem ascending_flatMap {f : Nat → List (Nat × Bool)} (hf : ∀ n, Ascending (f n))
    (h : ∀ m n, m < n → ∀ c ∈ f m, ∀ d ∈ f n, c.1 < d.1) (count : Nat) :
    Ascending ((List.range count).flatMap f) :=
  List.pairwise_flatMap.mpr ⟨fun n _ => hf n, List.pairwise_lt_range.imp fun hmn => h _ _ hmn⟩

theorem ascending_imageChecks : Ascending (imageChecks img) := by
  obtain ⟨count, hcount⟩ : ∃ count, count = min (at8 img 24) 24 := ⟨_, rfl⟩
  have hlines : Ascending ((List.range (min (at8 img 1) 8)).flatMap (lineChecks img)) := by
    refine ascending_flatMap (fun n => (ascending_parts img 0 n).2.1) (fun m n hmn c hc d hd => ?_) _
    have hlow := (checks_index img 0 m).2.1 hc
    have hhigh := (checks_index img 0 n).2.1 hd
    omega
  have hsteps : Ascending ((List.range count).flatMap (stepChecks img count)) := by
    refine ascending_flatMap (fun n => (ascending_parts img count n).2.2) (fun m n hmn c hc d hd => ?_) _
    have hlow := (checks_index img count m).2.2 hc
    have hhigh := (checks_index img count n).2.2 hd
    omega
  have hstation := (ascending_parts img 0 0).1
  simp only [imageChecks, u8_eq, ← hcount]
  refine List.pairwise_append.mpr ⟨List.pairwise_append.mpr ⟨hstation, hlines, fun c hc d hd => ?_⟩, hsteps,
    fun c hc d hd => ?_⟩
  · obtain ⟨n, -, hd⟩ := List.mem_flatMap.mp hd
    have hlow := (checks_index img 0 0).1 hc
    have hhigh := (checks_index img 0 n).2.1 hd
    omega
  · obtain ⟨j, -, hd⟩ := List.mem_flatMap.mp hd
    have hhigh := (checks_index img count j).2.2 hd
    rcases List.mem_append.mp hc with hc | hc
    · have hlow := (checks_index img 0 0).1 hc
      omega
    · obtain ⟨n, hn, hc⟩ := List.mem_flatMap.mp hc
      have hn := List.mem_range.mp hn
      have hlow := (checks_index img 0 n).2.1 hc
      omega

end checks

/-! ## The index reported (R192) -/

/-- A predicate holds of a number and of none below. -/
def Lowest (P : Nat → Prop) (k : Nat) : Prop := P k ∧ ∀ k', P k' → k ≤ k'

/-- In an ascending list the first failing check is the one of lowest index. -/
theorem find_failing_iff {cs : List (Nat × Bool)} (h : Ascending cs) (k : Nat) :
    ((cs.find? fun c => !c.2).map Prod.fst) = some k ↔ Lowest (fun k => (k, false) ∈ cs) k := by
  induction cs with
  | nil => simp [Lowest]
  | cons c rest ih =>
    obtain ⟨hc, hrest⟩ := List.pairwise_cons.mp h
    obtain ⟨n, passes⟩ := c
    cases passes with
    | true =>
      rw [List.find?_cons_of_neg (by simp), ih hrest]
      simp [Lowest]
    | false =>
      rw [List.find?_cons_of_pos (by simp)]
      have hn : ∀ k', (k', false) ∈ (n, false) :: rest → n ≤ k' := fun k' hk' => by
        rcases List.mem_cons.mp hk' with he | hk'
        · exact (congrArg Prod.fst he).ge
        · exact (hc _ hk').le
      refine ⟨fun he => ?_, fun ⟨hk, hlow⟩ => ?_⟩
      · obtain rfl : n = k := Option.some.inj he
        exact ⟨List.mem_cons_self, hn⟩
      · exact congrArg some (le_antisymm (hn k hk) (hlow n List.mem_cons_self))

/-- What the model checks and what R198 gives fail at the same lowest index: they differ in the targets of steps
alone, where more than 24 steps are counted, and then item 19 has failed. -/
theorem lowest_iff (img : List Byte) (k : Nat) :
    Lowest (fun k => (k, false) ∈ imageChecks img) k ↔ Lowest (ItemFails img) k := by
  have hmodel : ∀ k, ItemFails img k → (k, false) ∈ imageChecks img := fun k hk => by
    rw [itemFails_iff] at hk
    refine (mem_imageChecks img).mpr (hk.imp_right fun hk => hk.imp ?_ ?_)
    · exact fun ⟨n, hn, hk⟩ => ⟨n, lt_min hn n.isLt, hk⟩
    · exact fun ⟨j, hj, hk⟩ => ⟨j, lt_min hj j.isLt, stepChecks_fewer img (Nat.min_le_left _ _) hk⟩
  have hspec : ∀ k, (k, false) ∈ imageChecks img → ItemFails img k ∨ (ItemFails img 19 ∧ 19 < k) := by
    intro k hk
    simp only [itemFails_iff]
    rcases (mem_imageChecks img).mp hk with hk | ⟨n, hn, hk⟩ | ⟨j, hj, hk⟩
    · exact .inl (.inl hk)
    · obtain ⟨hn, hn8⟩ := lt_min_iff.mp hn
      exact .inl (.inr (.inl ⟨⟨n, hn8⟩, hn, hk⟩))
    · obtain ⟨hj, hj24⟩ := lt_min_iff.mp hj
      by_cases hcount : at8 img 24 ≤ 24
      · rw [Nat.min_eq_left hcount] at hk
        exact .inl (.inr (.inr ⟨⟨j, hj24⟩, hj, hk⟩))
      · have hindex := (checks_index img _ j).2.2 hk
        refine .inr ⟨.inl ?_, by omega⟩
        simp [stationChecks, inRange, u8_eq, hcount]
  refine ⟨fun ⟨hk, hlow⟩ => ⟨?_, fun k' hk' => hlow k' (hmodel k' hk')⟩,
    fun ⟨hk, hlow⟩ => ⟨hmodel k hk, fun k' hk' => ?_⟩⟩
  · rcases hspec k hk with hk | ⟨h19, hlt⟩
    · exact hk
    · exact absurd (hlow 19 (hmodel 19 h19)) (Nat.not_le.mpr hlt)
  · rcases hspec k' hk' with hk' | ⟨h19, hlt⟩
    · exact hlow k' hk'
    · exact (hlow 19 h19).trans hlt.le

end Sys2Proof.Machine

/-! SUPPORT. What an image that passes its checks loads, and the statement about the image check (R192, R198). -/

namespace Sys2Proof.Machine

/-! ## The index of the image check (R192) -/

section fault

variable {img : List Byte}

theorem imageFault_length (h : img.length ≠ 515) : imageFault img = some 0 := by
  simp [imageFault, h]

theorem imageFault_eq (h : img.length = 515) :
    imageFault img = ((imageChecks img).find? fun c => !c.2).map Prod.fst := by
  simp [imageFault, h]

theorem imageFault_some_iff (h : img.length = 515) (k : Nat) :
    imageFault img = some k ↔ Lowest (ItemFails img) k := by
  rw [imageFault_eq h, find_failing_iff (ascending_imageChecks img), lowest_iff]

/-- A predicate that holds of some number holds of a lowest one. -/
theorem exists_lowest {P : Nat → Prop} {n : Nat} (h : P n) : ∃ k, Lowest P k := by
  classical
  exact ⟨Nat.find ⟨n, h⟩, Nat.find_spec ⟨n, h⟩, fun _ hk => Nat.find_min' ⟨n, h⟩ hk⟩

theorem imageFault_none_iff (h : img.length = 515) :
    imageFault img = none ↔ ∀ k, ¬ ItemFails img k := by
  rw [Option.eq_none_iff_forall_ne_some]
  simp only [ne_eq, imageFault_some_iff h]
  refine ⟨fun hnone k hk => ?_, fun hnone k hk => hnone k hk.1⟩
  obtain ⟨low, hlow⟩ := exists_lowest hk
  exact hnone low hlow

/-- Every check of an image without a fault passes. -/
theorem checks_pass (h : imageFault img = none) : (∀ c ∈ stationChecks img, c.2 = true) ∧
    (∀ n < min (at8 img 1) 8, ∀ c ∈ lineChecks img n, c.2 = true) ∧
    ∀ j < min (at8 img 24) 24, ∀ c ∈ stepChecks img (min (at8 img 24) 24) j, c.2 = true := by
  have hlength : img.length = 515 := by
    by_contra hne
    rw [imageFault_length hne] at h
    exact nomatch h
  rw [imageFault_eq hlength, Option.map_eq_none_iff, List.find?_eq_none] at h
  have hpass : ∀ c ∈ imageChecks img, c.2 = true := fun c hc => by simpa using h c hc
  exact ⟨fun c hc => hpass c ((mem_imageChecks img).mpr (.inl hc)),
    fun n hn c hc => hpass c ((mem_imageChecks img).mpr (.inr (.inl ⟨n, hn, hc⟩))),
    fun j hj c hc => hpass c ((mem_imageChecks img).mpr (.inr (.inr ⟨j, hj, hc⟩)))⟩

end fault

/-! ## The lines and the steps loaded (R198) -/

section parts

variable {img : List Byte}

theorem loadCfg_line (img : List Byte) (i : LineNo) : (loadCfg img).lines[i] =
    if i.val < at8 img 1 then loadLine img i.val else .blank := by
  fin_cases i <;> rfl

theorem loadCfg_lowThreshold (img : List Byte) (x : SourceNo) :
    (loadCfg img).lowThreshold[x] = u32 img (163 + 4 * x.val) := by
  fin_cases x <;> rfl

theorem loadLine_ok {n : Nat} (h : ∀ c ∈ lineChecks img n, c.2 = true) : (loadLine img n).ok := by
  simp [lineChecks, inRange, inRangeInt, u8_eq, u16_eq, s16_eq] at h
  obtain ⟨-, -, hk, hoq, hfoam, hflow, ha, hb⟩ := h
  obtain ⟨hglow, hghigh⟩ := at16s_range img (lineOff n + 4)
  have hfint := at16_le img (lineOff n + 8)
  have hleak := at8_le img (lineOff n + 12)
  simp only [LineCfg.ok, loadLine, u8_eq, u16_eq, s16_eq]
  refine ⟨hk.1, hk.2, hglow, hghigh, hoq.1, hoq.2, hfint, hfoam.1, hfoam.2, hflow.1, hflow.2, hleak,
    fun hmode => ?_⟩
  have hfree : at8 img (lineOff n + 1) = 0 := by
    by_contra hne
    simp [hne] at hmode
  exact ⟨(ha.resolve_left (not_not.mpr hfree)).1, (ha.resolve_left (not_not.mpr hfree)).2,
    (hb.resolve_left (not_not.mpr hfree)).1, (hb.resolve_left (not_not.mpr hfree)).2⟩

theorem target_ok {count n : Nat} (h : n < count ∨ n = 255) : (StepTarget.ofCode n).ok count := by
  unfold StepTarget.ofCode
  split
  · trivial
  · exact h.resolve_right ‹_›

theorem loadStep_ok {count j : Nat} (h : ∀ c ∈ stepChecks img count j, c.2 = true) :
    (loadStep img j).ok count := by
  simp [stepChecks, inRange, u8_eq, u16_eq] at h
  obtain ⟨-, hdwell, hlimit, -, -, -, hnext, hfault⟩ := h
  simp only [StepRec.ok, loadStep, u8_eq, u16_eq]
  exact ⟨hdwell.1, hdwell.2, hlimit, at16_le _ _, target_ok hnext, target_ok hfault⟩

/-- The source number is checked, so it fits its field (R198). -/
theorem loadLine_loaded {i : LineNo} (h : ∀ c ∈ lineChecks img i.val, c.2 = true) :
    LineLoaded img i (loadLine img i.val) := by
  simp [lineChecks, u8_eq] at h
  obtain ⟨hsource, -⟩ := h
  refine ⟨?_, rfl, u16_eq _ _, s16_eq _ _, s16_eq _ _, u16_eq _ _, rfl, rfl, rfl, u16_eq _ _, u16_eq _ _⟩
  exact Nat.mod_eq_of_lt (Nat.lt_succ_of_le hsource)

theorem loadStep_loaded (img : List Byte) (j : Nat) : StepLoaded img j (loadStep img j) :=
  ⟨rfl, u16_eq _ _, u16_eq _ _, rfl, rfl, rfl, u16_eq _ _, rfl, rfl⟩

end parts

/-! ## The configuration loaded (R192, R198) -/

section loaded

variable {img : List Byte}

/-- The line count and the step count of an image without a fault. -/
theorem counts_checked (h : imageFault img = none) : at8 img 1 ≤ 8 ∧ 1 ≤ at8 img 24 ∧ at8 img 24 ≤ 24 := by
  obtain ⟨hstation, -⟩ := checks_pass h
  have hlines := hstation (2, u8 img 1 ≤ 8) (by simp [stationChecks])
  have hsteps := hstation (19, inRange 1 24 (u8 img 24)) (by simp [stationChecks])
  simp [inRange, u8_eq] at hlines hsteps
  exact ⟨hlines, hsteps⟩

theorem loadCfg_ok (h : imageFault img = none) : (loadCfg img).ok := by
  obtain ⟨hstation, hlines, hsteps⟩ := checks_pass h
  obtain ⟨hlc, hone, hsc⟩ := counts_checked h
  rw [Nat.min_eq_left hlc] at hlines
  rw [Nat.min_eq_left hsc] at hsteps
  simp [stationChecks, inRange, inRangeInt, u8_eq, u16_eq, s16_eq] at hstation
  obtain ⟨hnumber, -, hperiod, hcap, htset, htwarm, hhyst, hdpour, hms, hos, hpace, hpour, hhold, hslots,
    hlimit, hfill, -, hentry1, hentry2⟩ := hstation
  have hgain := at8_le img 11
  have hfault := at8_le img 13
  have hlength : (loadCfg img).steps.length = at8 img 24 := by simp [loadCfg, u8_eq]
  refine ⟨?_, ?_, ?_, ?_, fun i hi => ?_⟩
  · simp only [loadCfg, u8_eq, u16_eq]
    omega
  · simp only [loadCfg, u8_eq, u16_eq, s16_eq]
    omega
  · simp only [loadCfg, u8_eq]
    simp
    omega
  · rw [hlength]
    refine ⟨hone, hsc, hentry1, hentry2, fun st hst => ?_⟩
    obtain ⟨j, hj, rfl⟩ := List.mem_map.mp hst
    exact loadStep_ok (hsteps j (List.mem_range.mp hj))
  · have hi : i.val < at8 img 1 := hi
    rw [loadCfg_line, if_pos hi]
    exact loadLine_ok (hlines i.val hi)

theorem loadCfg_loaded (h : imageFault img = none) : ImageLoaded img (loadCfg img) := by
  obtain ⟨-, hlines, -⟩ := checks_pass h
  obtain ⟨hlc, -⟩ := counts_checked h
  rw [Nat.min_eq_left hlc] at hlines
  refine ⟨?_, fun i hi => ?_, fun x => ?_, fun j hj => ?_⟩
  · simp [StationLoaded, loadCfg, u8_eq, u16_eq, s16_eq]
  · rw [loadCfg_line, if_pos hi]
    exact loadLine_loaded (hlines i.val hi)
  · rw [loadCfg_lowThreshold, u32_eq, show 163 + 4 * x.val + 2 = 165 + 4 * x.val by omega]
  · exact ⟨loadStep img j, by simp [loadCfg, u8_eq, hj], loadStep_loaded img j⟩

end loaded

/-- Settles O13: the checks ascend in item index, and what they pass is in range where it is used. -/
theorem imageChecked : Obligations.ImageChecked := by
  refine ⟨fun _ => imageFault_length, fun img k hl hk => ?_, fun img hl =>
    ⟨imageFault_none_iff hl, imageFault_some_iff hl⟩, fun img h => ⟨loadCfg_ok h, loadCfg_loaded h⟩⟩
  rw [imageFault_eq hl] at hk
  exact (find_failing_iff (ascending_imageChecks img) k).mp hk

end Sys2Proof.Machine

/-! SUPPORT. The reset and the terminal port: the state after a reset, RSTN, the periods of the port and RESET, and
their statements (R1, R4, R121, R134, R157, R173, R186, R188, R189, R193). -/

namespace Sys2Proof.Machine

/-! ## The state after a reset (R193) -/

section reset

variable (i : LineNo) (x : SourceNo) (n : Fin 32)

@[simp] theorem reset_line : State.reset.line i = .reset := by simp [State.reset, State.line]

@[simp] theorem reset_source : State.reset.source x = .reset := by simp [State.reset, State.source]

@[simp] theorem reset_peer : State.reset.peer n = none := by simp [State.reset, State.peer]

theorem afterReset_eq (s : State) : afterReset s = resetAct s := rfl

end reset

/-- Settles O3, block by block; lines, sources and peer records hold the same reset value each. -/
theorem resetState : Obligations.ResetState := by
  refine ⟨⟨rfl, rfl, rfl, rfl, rfl, rfl, rfl⟩, fun i => ?_, ⟨rfl, rfl, rfl⟩, fun x => ?_, fun n => ?_,
    ?_, ?_, ?_⟩
  · rw [reset_line]
    exact ⟨rfl, rfl, rfl, rfl, rfl, rfl, rfl, rfl, rfl, rfl, rfl, rfl, rfl, rfl, rfl⟩
  · rw [reset_source]
    rfl
  · exact reset_peer n
  · exact ⟨rfl, rfl, rfl, rfl, rfl, rfl, rfl, rfl, rfl, rfl, rfl, rfl⟩
  · exact ⟨rfl, rfl, rfl, rfl, rfl, rfl, rfl, rfl, rfl, rfl, rfl, rfl, rfl⟩
  · exact ⟨rfl, rfl, rfl, rfl, rfl, rfl, rfl⟩

/-- Settles O53: every list and every counter is empty, every figure 0, and every line OFF and dark. -/
theorem resetMeetsInvariants : Obligations.ResetMeetsInvariants := by
  have hstation : StationOk State.reset ∧ (True → LampsOk State.reset) :=
    stationOk_lampsOk_iff.mpr (sound_resetAct State.reset)
  have hcounts : Cleaning.reset.countsOk :=
    ⟨fun i => ⟨counts_zero i, counts_zero i⟩, by simp [Cleaning.reset]⟩
  refine ⟨(ordersOk_iff _).mpr fun i => ?_,
    (coolingOk_iff _).mpr ⟨Cooling.reset_ok _, Nat.zero_le _, fun _ => rfl⟩,
    ?_, fun f hf => (nomatch hf), fun n p hp => ?_,
    (widthsOk_iff _).mpr ⟨fun i => ?_, fun x => ?_, hcounts, ?_⟩,
    hstation.1, hstation.2 trivial⟩
  · rw [reset_line]
    simp [Line.ordersOk, Line.reset]
  · simp [LinkOk, State.reset, Link.reset]
  · rw [reset_peer] at hp
    exact nomatch hp
  · rw [reset_line]
    simp [Line.countsOk, Line.reset]
  · rw [reset_source]
    simp [SourceRec.countsOk, SourceRec.reset]
  · simp [Link.countsOk, State.reset, Link.reset]

/-! ## RSTN (R193) -/

section rstn

variable {s : State}

theorem powered_low (h : s.rstnLow = true) (f : State → State) : powered s f = s := if_pos h

theorem powered_high (h : s.rstnLow = false) (f : State → State) : powered s f = f s :=
  if_neg (by simp [h])

/-- While RSTN is held low nothing is taken but RSTN itself (log 7). -/
theorem exec_low (h : s.rstnLow = true) {c : Instr} (hr : c ≠ .rstnRelease) (ha : c ≠ .rstnAssert) :
    exec c s = .next s := by
  cases c with
  | rstnRelease => exact absurd rfl hr
  | rstnAssert => exact absurd rfl ha
  | _ => exact congrArg Host.Outcome.next (powered_low h _)

theorem ownLevel_low (h : s.rstnLow = true) : ownLevel s = none := by
  unfold ownLevel
  split
  · simp [h]
  · rfl

end rstn

/-- Settles O4: every event but those of RSTN is taken only while RSTN is released, and every pin reads RSTN. -/
theorem rstnResets : Obligations.RstnResets := by
  refine fun s => ⟨rfl, rfl, fun h => ⟨fun c hr ha => exec_low h hr ha, fun i => ?_, ?_⟩⟩
  · simp [vlvPin, lmpPin, h]
  · simp [glyPin, waterPin, chemPin, airPin, pumpPin, rdyPin, atnPin, sdoPin, driverOn, pairPin,
      ownLevel_low h, h]

/-! ## Command periods (R188, R189, R193) -/

section periods

variable {s : State} {body : State → State × Answer}

/-- Every command of the terminal runs as a command period. -/
theorem exec_fromTerminal {c : Instr} (h : fromTerminal c = true) :
    ∃ body, ∀ s, exec c s = .next (command body s) := by
  cases c with
  | configure image => exact ⟨configureBody image, fun _ => rfl⟩
  | start | stop | reset | readStatus | readLine | readSource | readPeer | readLink | readAttention
  | takeRecord | order | cancel | pourStop | unlock | calibrate | sourceChange | cleanStart | cleanAbort
  | clearMute | commandNotExecuted => exact ⟨_, fun _ => rfl⟩
  | _ =>
    have hno : false = true := h
    exact nomatch hno

/-- A command period begun with RDY low (R189). -/
theorem command_busy (hr : s.rstnLow = false) (h : s.port.rdy = false) :
    command body s = { s with port := markOverrun s.port } := by
  simp [command, powered_high hr, h]

/-- A command period begun while a RESET waits (R193). -/
theorem command_resets (hr : s.rstnLow = false) (h : s.port.rdy = true) (ha : s.port.resetArm.isArmed = true) :
    command body s = resetAct s := by
  simp [command, powered_high hr, h, ha]

/-- A command that the port takes is executed, and its answer prepared (R188). -/
theorem command_taken (h : s.accepts) :
    command body s = prepare (body (beginCommand s)).2 (body (beginCommand s)).1 := by
  obtain ⟨hr, hrdy, harm⟩ := h
  simp [command, powered_high hr, hrdy, harm]

end periods

/-- Settles O5: a command period looks at RDY first, then at a waiting RESET. -/
theorem notExecuted : Obligations.NotExecuted := by
  refine fun c s hr => ⟨fun hc hrdy => ?_, fun hc hrdy harm => ?_, fun harm => ?_⟩
  · obtain ⟨body, hbody⟩ := exec_fromTerminal hc
    rw [hbody, command_busy hr hrdy]
    rfl
  · obtain ⟨body, hbody⟩ := exec_fromTerminal hc
    rw [hbody, command_resets hr hrdy harm, afterReset_eq]
  · exact congrArg Host.Outcome.next ((powered_high hr _).trans (if_pos harm))

/-! ## Read periods and responses (R188, R193) -/

section responses

variable {s : State}

/-- A response is held, and RDY rises; that of a RESET begins to wait (R188, R193). -/
theorem exec_responseReady (hr : s.rstnLow = false) {r : Response} (h : s.port.preparing = some r) :
    exec .responseReady s = .next { s with port := { s.port with
      held := some r, preparing := none, rdy := true, resetArm := s.port.resetArm.ready s.now } } := by
  refine congrArg Host.Outcome.next ((powered_high hr _).trans ?_)
  simp only [h]

/-- A read period that consumes the response of a RESET makes the reset act (R193). -/
theorem exec_readPeriod_resets (hr : s.rstnLow = false) {n : Nat} (hn : 1 ≤ n)
    (h : (s.port.held.isSome && s.port.resetArm.isArmed) = true) :
    exec (.readPeriod n) s = .next { afterReset s with port := { Port.reset with
      since := s.now, sdo := shiftOut s.port.held n } } := by
  refine congrArg Host.Outcome.next ((powered_high hr _).trans ?_)
  simp only [Nat.ne_of_gt hn, if_false, readOut, h, if_true]
  rfl

/-- Any other read period consumes what is held (R188). -/
theorem exec_readPeriod_consumes (hr : s.rstnLow = false) {n : Nat} (hn : 1 ≤ n)
    (h : (s.port.held.isSome && s.port.resetArm.isArmed) = false) :
    exec (.readPeriod n) s = .next { s with port := { s.port with
      held := none, sdo := shiftOut s.port.held n } } := by
  refine congrArg Host.Outcome.next ((powered_high hr _).trans ?_)
  simp [Nat.ne_of_gt hn, readOut, h]

theorem execAll_next {c : Instr} {t : State} (h : exec c s = .next t) (cs : List Instr) :
    execAll (c :: cs) s = execAll cs t := by
  rw [execAll, h]

/-- The state that holds the answer of RESET, from a state that takes the command (R193). -/
def resetHeld (s : State) : State :=
  { s with port := { s.port with
      rdy := true, held := some ⟨.ok, s.port.overrunNext, []⟩, since := s.now, overrunNext := false,
      preparing := none, resetArm := .armed s.now } }

/-- The answer of RESET as the port shifts it out; O7 lists its bytes as numbers, which the state takes as bytes. -/
theorem shiftOut_resetHeld (s : State) (n : Nat) : (shiftOut (resetHeld s).port.held n : List Byte) =
    ([if s.port.overrunNext then 0x81 else 0x01, 0, 0] ++ List.replicate n 0).take n := by
  have hfill : (List.replicate n 0).flatMap (fun a => [BitVec.ofNat 8 a]) = List.replicate n 0 := by
    rw [← List.map_eq_flatMap, List.map_replicate]
    rfl
  have hlen : enc2 0 = [0, 0] := rfl
  cases h : s.port.overrunNext <;> simp [resetHeld, h, shiftOut, Response.chars, Status.code, hlen, hfill]

end responses

/-- Settles O6: the four periods of the port. -/
theorem portPeriods : Obligations.PortPeriods := by
  refine fun s hr => ⟨fun n hn => ?_, fun r hp => ?_, fun hp => ?_, fun h => ?_⟩
  · intro frame out
    have hout : out = shiftOut s.port.held n := by
      cases hh : s.port.held <;> simp only [out, frame, hh] <;> rfl
    cases h : s.port.held.isSome && s.port.resetArm.isArmed with
    | true => rw [exec_readPeriod_resets hr hn h, if_pos rfl, hout]
    | false => rw [exec_readPeriod_consumes hr hn h, if_neg (by simp), hout]
  · rw [exec_responseReady hr hp]
    rfl
  · refine congrArg Host.Outcome.next ((powered_high hr _).trans (if_pos ?_))
    simp [hp]
  · exact congrArg Host.Outcome.next (command_unchanged h rfl)

/-- Settles O7: the answer of RESET is held and waits; the read period that consumes it resets. -/
theorem resetCommandActs : Obligations.ResetCommandActs := by
  intro s n h hn
  have hreset : exec .reset s =
      .next (answer .ok [] { s with port := { s.port with resetArm := .preparing } }) :=
    congrArg Host.Outcome.next (command_taken h)
  refine ⟨hreset, ?_⟩
  have hready : exec .responseReady (answer .ok [] { s with port := { s.port with resetArm := .preparing } }) =
      .next (resetHeld s) :=
    exec_responseReady (s := answer .ok [] { s with port := { s.port with resetArm := .preparing } })
      (r := ⟨.ok, s.port.overrunNext, []⟩) h.1 rfl
  have hread : exec (.readPeriod n) (resetHeld s) = .next { afterReset s with port := { Port.reset with
      since := s.now, sdo := shiftOut (resetHeld s).port.held n } } :=
    exec_readPeriod_resets (s := resetHeld s) h.1 hn rfl
  rw [shiftOut_resetHeld] at hread
  rw [execAll_next hreset, execAll_next hready, execAll_next hread, execAll]

end Sys2Proof.Machine

/-! SUPPORT. CONFIGURE: the acceptance of an image, and the statement about it (R121, R151, R191, R192). -/

namespace Sys2Proof.Machine

section configure

variable {s : State} {img : List Byte} {k : Nat}

theorem configureBody_configured (h : s.station ≠ .unconfigured) :
    configureBody img s = (s, .badState, []) := if_pos h

theorem configureBody_fault (h : s.station = .unconfigured) (hf : imageFault img = some k) :
    configureBody img s = (s, .badConfig, bytes16 (BitVec.ofNat 16 k)) := by
  simp only [configureBody, h, not_true_eq_false, ne_eq, if_false, hf]
  rfl

theorem configureBody_passes (h : s.station = .unconfigured) (hf : imageFault img = none) :
    configureBody img s = (acceptImage img s, .ok, []) := by
  simp only [configureBody, h, not_true_eq_false, ne_eq, if_false, hf]
  rfl

/-- A STATUS requested while nothing waits is current at once (R110). -/
theorem requestStatus_first {t : State} (hm : t.link.mute = false) (hs : t.station = .stopped)
    (hc : t.link.changes = []) (hn : t.link.current = none) :
    requestStatus t = { t with link := { t.link with statusReq := true, current := some ⟨.status, 0⟩ } } := by
  rw [requestStatus_eq hm (by simp [hs]), chooseFrame_requested rfl]
  simp only [hn, hc, List.isEmpty_nil, if_true]

/-- The state in which an accepted image's first STATUS is requested: configured, STOPPED, the link started. -/
def imageTaken (img : List Byte) (s : State) : State :=
  { s with
    config := some (loadCfg img), station := .stopped, seconds := 0, secondFrom := some s.now,
    link := { s.link with rx := .discard, idleFrom := some s.now, announceFrom := some s.now } }

/-- The acceptance of an image while the link's queue is empty (R121, R151, R192). -/
theorem acceptImage_eq (hm : s.link.mute = false) (hc : s.link.changes = []) (hn : s.link.current = none) :
    acceptImage img s = { s with
      config := some (loadCfg img), station := .stopped, seconds := 0, secondFrom := some s.now,
      link := { s.link with
        rx := .discard, idleFrom := some s.now, announceFrom := some s.now, statusReq := true,
        current := some ⟨.status, 0⟩ },
      cool := { s.cool with
        sampleFrom := some s.now, latched := s.cool.grant, frameFrom := some s.now,
        gly := decide (0 < s.cool.grant) } } :=
  congrArg (fun t : State => glycolFrame { t with cool := { t.cool with sampleFrom := some s.now } })
    (requestStatus_first (t := imageTaken img s) hm rfl hc hn)

end configure

/-- Settles O12, by the three ways out of the body of CONFIGURE. -/
theorem configureCommand : Obligations.ConfigureCommand := by
  refine fun img s h => ⟨fun hs => ?_, fun k hs hf => ?_, fun hs hm hc hn hf => ⟨loadCfg_loaded hf, ?_⟩⟩
  · exact congrArg Host.Outcome.next (command_unchanged h (configureBody_configured hs))
  · exact congrArg Host.Outcome.next (command_unchanged h (configureBody_fault hs hf))
  · have hbody := (configureBody_passes (s := beginCommand s) hs hf).trans
      (congrArg (·, Status.ok, []) (acceptImage_eq hm hc hn))
    exact congrArg Host.Outcome.next (command_of_body h hbody rfl rfl)

end Sys2Proof.Machine
